-- ==== Sys2Proof/Word.lean ====
section
/-! DEFINITION. The words of the block: all of them unsigned (00_scope.md R11). -/

namespace Sys2Proof

/-- A received byte, bits 7 (most significant) down to 0 (00_scope.md R11). -/
abbrev Byte := BitVec 8

/-- The operation selector, bit 5 `rst` down to bit 0 `last` (30_encoding.md R74). -/
abbrev Sel := BitVec 6

/-- A channel id, 0 to 15 (00_scope.md R6). -/
abbrev Chan := BitVec 4

/-- A servo position, 0 to 2047 (00_scope.md R6). -/
abbrev Pos := BitVec 11

end Sys2Proof
end

