-- ==== Sys2Proof/Config.lean ====
section
/-! DEFINITION. The parameters of the block and the protocol constants (00_scope.md R6, R8, R9, R10), and the two
values the spec leaves free. -/

namespace Sys2Proof

/-- The parameters a run is made with (00_scope.md R10): constants of the run (R15). -/
structure Config where
  /-- `T_TICKS`, the gap threshold in clock ticks (R8, R10). -/
  tTicks : Nat
  /-- `GAP_W`, the width of the gap timer in bits (R10). -/
  gapW : Nat
  /-- `N_TABLE`, the number of entries of the Servo Position Table (R9). -/
  nTable : Nat
  deriving DecidableEq, Repr

namespace Config

/-- `GAP_MAX = 2^GAP_W - 1` (00_scope.md R10, 40_timing_sync.md R94). -/
def gapMax (c : Config) : Nat := 2 ^ c.gapW - 1

/-- A configuration of this hardware: `GAP_MAX > T_TICKS` (40_timing_sync.md R94) and `N_TABLE >= 1` (00_scope.md
R9). 93_implementation_defined.md S3 and S4 refuse every other. -/
def legal (c : Config) : Bool := decide (c.tTicks < c.gapMax) && decide (1 ≤ c.nTable)

/-- The example configuration of 00_scope.md R10: 1 MHz clock, 5 ms threshold. -/
def ofExample : Config := { tTicks := 5000, gapW := 13, nTable := 18 }

/-- The byte on `rx_data` in a cycle whose input nobody states. 93_implementation_defined.md S2 gives it any value; no
rule reads it. A free value: nothing in Lean can evaluate it. -/
opaque undrivenData : Byte

/-- The value on `rx_valid` in a cycle of `RST`, which 30_encoding.md R83 and 95_test_vectors.md section 0 leave open
(`(1, x, xx)`); RESET overrides it (10_state.md R33). A free value, DESIGN CHOICE of log 20: nothing in Lean can evaluate it. -/
opaque undrivenValid : Bool

/-- `PKT_LEN` (00_scope.md R6). -/
def pktLen : Nat := 16

/-- `HDR_LEN` (00_scope.md R6). -/
def hdrLen : Nat := 2

/-- `N_ENT`, the lanes of a packet (00_scope.md R6). -/
def nEnt : Nat := 7

/-- `ENT_LEN` (00_scope.md R6). -/
def entLen : Nat := 2

end Config
end Sys2Proof
end

