-- ==== Sys2Proof/Syntax.lean ====
section
/-! DEFINITION. The operations of the block, one constructor per row of spec/opcode_table.json. The nine operations of
30_encoding.md R75 carry the selector bits the table writes `x` ("a bit the operation does not depend on"), so that no bit
of a selector is lost; the four sub-operations of R77 carry the data word they act on. -/

namespace Sys2Proof

/-- One operation (30_encoding.md R75) or sub-operation (R77). -/
inductive Instr where
  /-- RESET, selector `1xxxxx`; `x` is bits 4 to 0 (R160). -/
  | reset (x : BitVec 5)
  /-- TICK, selector `00xxxx`; `x` is bits 3 to 0 (R92). -/
  | tick (x : BitVec 4)
  /-- PRIME, selector `0100xx`; `x` is bits 1 and 0 (R101). -/
  | prime (x : BitVec 2)
  /-- SEEK.SKIP, selector `01010x`; `x` is bit 0, `last` (R102). -/
  | seekSkip (x : BitVec 1)
  /-- SEEK.LOCK, selector `01011x`; `x` is bit 0, `last` (R103). -/
  | seekLock (x : BitVec 1)
  /-- FLUSH.SKIP, selector `0110x0`; `x` is bit 1, `long` (R104). -/
  | flushSkip (x : BitVec 1)
  /-- FLUSH.LAST, selector `0110x1`; `x` is bit 1, `long` (R105). -/
  | flushLast (x : BitVec 1)
  /-- CAPT.STORE, selector `0111x0`; `x` is bit 1, `long` (R106). -/
  | captStore (x : BitVec 1)
  /-- CAPT.LAST, selector `0111x1`; `x` is bit 1, `long` (R107). -/
  | captLast (x : BitVec 1)
  /-- HDR.SKIP on the header bytes `P[0]`, `P[1]` (R123). -/
  | hdrSkip (h0 h1 : Byte)
  /-- ENT.UNPACK on a lane's bytes `b0`, `b1` (R124). -/
  | entUnpack (b0 b1 : Byte)
  /-- DEMUX.WRITE on an entry `f`, `c`, `p` with `c < N_TABLE` (R126); `f` is ignored. -/
  | demuxWrite (f : BitVec 1) (c : Chan) (p : Pos)
  /-- DEMUX.DROP on an entry `f`, `c`, `p` with `c >= N_TABLE` (R127); `f` is ignored. -/
  | demuxDrop (f : BitVec 1) (c : Chan) (p : Pos)
  deriving DecidableEq, Repr

/-- Where a word stands, which with its bits decides the operation: the selector of a cycle (30_encoding.md R74), the
packet indices 0 and 1, a lane before the unpack, a lane at the demultiplexer (R77: "selected by position in the packet
and, for the last two, by a comparison with the parameter N_TABLE"). -/
inductive Slot where
  | sel
  | hdr
  | ent
  | demux
  deriving DecidableEq, Repr

end Sys2Proof
end

