-- ==== Sys2Proof/WellFormed.lean ====
section
/-! DEFINITION. Which instructions a configuration has: the two demultiplexer sub-operations are told apart by the
bounds check of 42_channel_decoder.md R125 and by nothing else, so each is well formed on its own side of it. -/

namespace Sys2Proof

/-- Well formed under a table of `n` entries (30_encoding.md R77: WRITE when `c < N_TABLE`, DROP when `c >= N_TABLE`). -/
def Instr.wf (n : Nat) : Instr → Bool
  | .reset _ => true
  | .tick _ => true
  | .prime _ => true
  | .seekSkip _ => true
  | .seekLock _ => true
  | .flushSkip _ => true
  | .flushLast _ => true
  | .captStore _ => true
  | .captLast _ => true
  | .hdrSkip _ _ => true
  | .entUnpack _ _ => true
  | .demuxWrite _ c _ => decide (c.toNat < n)
  | .demuxDrop _ c _ => decide (n ≤ c.toNat)

end Sys2Proof
end

