-- ==== Sys2Proof/Decode.lean ====
section
/-! DEFINITION. Decoding: the selector of a cycle by the table of 30_encoding.md R75, a data word of a packet by the
place it stands in (R77); then the encoder, written from the same tables. -/

namespace Sys2Proof

/-- Why a list of bytes is no word of its slot. -/
inductive DecodeError where
  /-- The slot's word has another number of bytes (30_encoding.md R70, R74: one for the selector, two for the others). -/
  | wrongLength
  /-- The byte that holds the selector has a bit above bit 5 set: the selector has 6 bits (R74). -/
  | selectorTooWide
  /-- No row of R75 matches; R76 says, and `selRow?_isSome` proves, that this never happens. -/
  | noRow
  deriving DecidableEq, Repr

/-- A row of the operation map of R75: selected when `(sel & mask) = pattern`. -/
structure SelRow where
  mask : Sel
  pattern : Sel
  build : Sel → Instr

/-- The operation map (30_encoding.md R75), row for row. -/
def selTable : List SelRow :=
  [ { mask := 0x20, pattern := 0x20, build := fun w => .reset (w.extractLsb' 0 5) },
    { mask := 0x30, pattern := 0x00, build := fun w => .tick (w.extractLsb' 0 4) },
    { mask := 0x3C, pattern := 0x10, build := fun w => .prime (w.extractLsb' 0 2) },
    { mask := 0x3E, pattern := 0x14, build := fun w => .seekSkip (w.extractLsb' 0 1) },
    { mask := 0x3E, pattern := 0x16, build := fun w => .seekLock (w.extractLsb' 0 1) },
    { mask := 0x3D, pattern := 0x18, build := fun w => .flushSkip (w.extractLsb' 1 1) },
    { mask := 0x3D, pattern := 0x19, build := fun w => .flushLast (w.extractLsb' 1 1) },
    { mask := 0x3D, pattern := 0x1C, build := fun w => .captStore (w.extractLsb' 1 1) },
    { mask := 0x3D, pattern := 0x1D, build := fun w => .captLast (w.extractLsb' 1 1) } ]

/-- `(sel & mask) = match` (R75). -/
def SelRow.hits (r : SelRow) (w : Sel) : Bool := w &&& r.mask == r.pattern

/-- The row a selector picks. -/
def selRow? (w : Sel) : Option SelRow := selTable.find? (fun r => r.hits w)

/-- The operation a selector picks (R75). -/
def decodeSel (w : Sel) : Except DecodeError Instr :=
  match selRow? w with
  | some r => .ok (r.build w)
  | none => .error .noRow

/-- The flag bit `f`, bit 15 of an entry word (30_encoding.md R73). -/
def entFlag (w : BitVec 16) : BitVec 1 := w.extractLsb' 15 1

/-- The channel id `c`, bits 14 to 11 (R73). -/
def entChan (w : BitVec 16) : Chan := w.extractLsb' 11 4

/-- The position `p`, bits 10 to 0 (R73). -/
def entPos (w : BitVec 16) : Pos := w.extractLsb' 0 11

/-- The demultiplexer sub-operation of an entry word under a table of `n` entries (R77). -/
def decodeDemux (n : Nat) (w : BitVec 16) : Instr :=
  if (entChan w).toNat < n then .demuxWrite (entFlag w) (entChan w) (entPos w)
  else .demuxDrop (entFlag w) (entChan w) (entPos w)

/-- The decoder: the bytes of a word (first byte most significant, 20_memory.md R52), the slot it stands in and the table
capacity `n`. -/
def decode (n : Nat) : Slot → List Byte → Except DecodeError Instr
  | .sel, [b] => if b.extractLsb' 6 2 = 0 then decodeSel (b.extractLsb' 0 6) else .error .selectorTooWide
  | .hdr, [h0, h1] => .ok (.hdrSkip h0 h1)
  | .ent, [b0, b1] => .ok (.entUnpack b0 b1)
  | .demux, [b0, b1] => .ok (decodeDemux n (b0 ++ b1))
  | .sel, _ => .error .wrongLength
  | .hdr, _ => .error .wrongLength
  | .ent, _ => .error .wrongLength
  | .demux, _ => .error .wrongLength

/-- The byte that holds a selector: its bits 5 to 0, bits 7 and 6 clear. -/
def selByte (w : Sel) : Byte := w.setWidth 8

/-- The two bytes of an entry word, most significant first (20_memory.md R52). -/
def wordBytes (w : BitVec 16) : List Byte := [w.extractLsb' 8 8, w.extractLsb' 0 8]

/-- The slot an instruction's word stands in. -/
def Instr.slot : Instr → Slot
  | .reset _ => .sel
  | .tick _ => .sel
  | .prime _ => .sel
  | .seekSkip _ => .sel
  | .seekLock _ => .sel
  | .flushSkip _ => .sel
  | .flushLast _ => .sel
  | .captStore _ => .sel
  | .captLast _ => .sel
  | .hdrSkip _ _ => .hdr
  | .entUnpack _ _ => .ent
  | .demuxWrite _ _ _ => .demux
  | .demuxDrop _ _ _ => .demux

/-- The encoder: the bytes of an instruction's word, from the patterns of R75 and R73. -/
def encode : Instr → List Byte
  | .reset x => [selByte (1#1 ++ x)]
  | .tick x => [selByte (0b00#2 ++ x)]
  | .prime x => [selByte (0b0100#4 ++ x)]
  | .seekSkip x => [selByte (0b01010#5 ++ x)]
  | .seekLock x => [selByte (0b01011#5 ++ x)]
  | .flushSkip x => [selByte (0b0110#4 ++ x ++ 0#1)]
  | .flushLast x => [selByte (0b0110#4 ++ x ++ 1#1)]
  | .captStore x => [selByte (0b0111#4 ++ x ++ 0#1)]
  | .captLast x => [selByte (0b0111#4 ++ x ++ 1#1)]
  | .hdrSkip h0 h1 => [h0, h1]
  | .entUnpack b0 b1 => [b0, b1]
  | .demuxWrite f c p => wordBytes (f ++ c ++ p)
  | .demuxDrop f c p => wordBytes (f ++ c ++ p)

/-- The instruction read from a word of the opcode table: a row of at most 8 bits is a selector, a row of 16 bits an entry
word `w = (b0, b1)`. The four 16-bit rows share every word (30_encoding.md R77 selects them by position); the answer is the
one whose row is "every 16-bit value", ENT.UNPACK (log 12). -/
def decodeTableWord (nbits w : Nat) : Option Instr :=
  if nbits ≤ 8 then
    if w < 256 then (decode Config.ofExample.nTable .sel [BitVec.ofNat 8 w]).toOption else none
  else if nbits = 16 then
    if w < 65536 then (decode Config.ofExample.nTable .ent (wordBytes (BitVec.ofNat 16 w))).toOption else none
  else none

end Sys2Proof
end

