-- ==== Sys2Proof/Machine/State.lean ====
section
/-! DEFINITION. The state of the block (10_state.md R20) beside the model's own three fields (the parameters, the inputs
to come, the lane wires), the two kinds of stop, and the reset state (10_state.md R37). -/

namespace Sys2Proof.Machine

/-- The aligner's state `st` (10_state.md R21). -/
inductive St where
  /-- `S_PRIME`, 0b00. -/
  | prime
  /-- `S_SEEK`, 0b01. -/
  | seek
  /-- `S_FLUSH`, 0b10. -/
  | flush
  /-- `S_LOCKED`, 0b11. -/
  | locked
  deriving DecidableEq, Repr

/-- The input ports of one cycle (10_state.md R33). -/
structure Input where
  rst : Bool
  rxValid : Bool
  rxData : Byte
  deriving DecidableEq, Repr

/-- What one lane's unpack yields: the channel id `c` and the position `p` (42_channel_decoder.md R124). -/
structure Lane where
  ch : Chan
  pos : Pos
  deriving DecidableEq, Repr

/-- The block and its inputs. `st` to `anomOob` are the eight elements of 10_state.md R20; `cfg`, `stim` and `lane` are
the model's own (log 1, 2, 5). -/
structure State where
  /-- The parameters, constants of a run (00_scope.md R10, R15). -/
  cfg : Config
  /-- `st` (R21). -/
  st : St
  /-- `cnt`, the packet index of the next byte (R22). -/
  cnt : BitVec 4
  /-- `gap`, clock ticks since the last byte, saturating at `GAP_MAX` (R23). -/
  gap : Nat
  /-- `acc[0..14]`, the packet accumulator (R24). -/
  acc : Vector Byte 15
  /-- `pkt[0..15]`, the committed packet (R25). -/
  pkt : Vector Byte 16
  /-- `pkt_done`, the pulse (R26). -/
  pktDone : Bool
  /-- `servo[0..N_TABLE-1]`, the Servo Position Table (R27). -/
  servo : List Pos
  /-- `anom_oob`, the sticky flag (R28). -/
  anomOob : Bool
  /-- The wires `c_k`, `p_k` between ENT.UNPACK and the demultiplexer, inside a cycle (42_channel_decoder.md R124). -/
  lane : Option Lane
  /-- The inputs of this cycle (the head) and of those that follow; past the end the source is silent (log 3). -/
  stim : List Input
  deriving DecidableEq, Repr

/-- A fault of the block: there is none. "The block never traps and never stops" (00_scope.md R16); "Inside the block
none exists" (60_exceptions.md R146). The type has no constructor, so no meaning can answer one. Safe. -/
inductive Fault where
  deriving DecidableEq, Repr

/-- Why the model gives no meaning. -/
inductive Refusal where
  /-- Raised by an arm of `exec` whose instruction has no meaning yet. Safe: the model stops. -/
  | notModelled (mnemonic : String)
  /-- Raised by `step` in a state whose configuration is not one of this hardware (93_implementation_defined.md S3, S4:
  "refuse"). Safe: the model stops. -/
  | illegalConfig
  /-- Raised by `step` where the decoder gives no operation for the cycle's selector. 30_encoding.md R76 says that every
  selector has one, so no state raises it. Safe: the model would stop. -/
  | noOperation
  deriving DecidableEq, Repr

/-- The state after a RESET under the parameters `c`, with the inputs `stim` still to come (10_state.md R37). -/
def State.resetWith (c : Config) (stim : List Input) : State :=
  { cfg := c, st := .prime, cnt := 0, gap := 0, acc := Vector.replicate 15 0, pkt := Vector.replicate 16 0,
    pktDone := false, servo := List.replicate c.nTable 0, anomOob := false, lane := none, stim := stim }

/-- The machine right after reset (10_state.md R37) in the example configuration (log 1), nothing presented yet. -/
def State.reset : State := State.resetWith Config.ofExample []

end Sys2Proof.Machine
end

