-- ==== Sys2Proof/Machine/Operands.lean ====
section
/-! DEFINITION. Every operand form: the inputs of the cycle (10_state.md R33), the state encoding (R21), the completed
packet (42_channel_decoder.md R121), a lane's bytes at `2+2k` and `3+2k` and what they unpack to (R124). -/

namespace Sys2Proof.Machine

/-- A cycle in which nothing is presented: `rst = 0`, `rx_valid = 0`, `rx_data` any value (93_implementation_defined.md
S2). -/
def Input.silent : Input := { rst := false, rxValid := false, rxData := Config.undrivenData }

/-- The inputs of this cycle; past the end of the list the source is silent (00_scope.md R17, log 3). -/
def State.inp (s : State) : Input := s.stim.headD Input.silent

/-- The 2-bit encoding of `st` (10_state.md R21). -/
def St.bits : St → BitVec 2
  | .prime => 0b00
  | .seek => 0b01
  | .flush => 0b10
  | .locked => 0b11

/-- The state a 2-bit encoding stands for (10_state.md R21). -/
def St.ofBits (w : BitVec 2) : St :=
  if w = 0b00 then .prime else if w = 0b01 then .seek else if w = 0b10 then .flush else .locked

/-- `b0` of lane `k`: packet byte `2+2k` (00_scope.md R11). -/
def laneB0 (P : Vector Byte 16) (k : Fin 7) : Byte := P[2 + 2 * k.val]

/-- `b1` of lane `k`: packet byte `3+2k` (00_scope.md R11). -/
def laneB1 (P : Vector Byte 16) (k : Fin 7) : Byte := P[3 + 2 * k.val]

/-- ENT.UNPACK's result: `c = (b0 & 0x78) >> 3`, `p = ((b0 & 0x07) << 8) | b1` (42_channel_decoder.md R124). -/
def unpack (b0 b1 : Byte) : Lane :=
  { ch := ((b0 &&& 0x78) >>> 3).setWidth 4
    pos := (((b0 &&& 0x07).setWidth 11) <<< 8) ||| b1.setWidth 11 }

/-- The lane `k` of a packet, unpacked. -/
def laneOf (P : Vector Byte 16) (k : Fin 7) : Lane := unpack (laneB0 P k) (laneB1 P k)

/-- The lanes in the order they are taken, `k = 0, 1, ..., 6` (42_channel_decoder.md R128). -/
def laneOrder : List (Fin 7) := [0, 1, 2, 3, 4, 5, 6]

/-- The packet completed by this cycle's byte: `acc[0..14]`, then `rx_data` (42_channel_decoder.md R121). -/
def State.completed (s : State) : Vector Byte 16 := s.acc.push s.inp.rxData

/-- `T_TICKS = floor(T * F_CLK)` for a threshold of `num / den` seconds and a clock of `fClk` hertz (40_timing_sync.md
R95). -/
def ticksOf (num den fClk : Nat) : Nat := num * fClk / den

end Sys2Proof.Machine
end

