-- ==== Sys2Proof/Machine/Flags.lean ====
section
/-! DEFINITION. Every flag the spec computes: the wires `long` and `last` (10_state.md R29, R30), the status `gap_found`
and `aligned` (R34), the bounds check of a lane (42_channel_decoder.md R125), and the selector they form (30_encoding.md
R74). -/

namespace Sys2Proof.Machine

/-- `long = (gap > T_TICKS)`, strict (10_state.md R29, 40_timing_sync.md R93). -/
def State.long (s : State) : Bool := decide (s.cfg.tTicks < s.gap)

/-- `last = (cnt = 15)` (10_state.md R30). -/
def State.last (s : State) : Bool := s.cnt == 15

/-- `gap_found = st[1]` (10_state.md R34). -/
def St.gapFound (x : St) : Bool := x.bits.getLsbD 1

/-- `aligned = (st = S_LOCKED)` (10_state.md R34). -/
def St.aligned (x : St) : Bool := x == .locked

/-- `oob = (c >= N_TABLE)` for a table of `n` entries (42_channel_decoder.md R125). -/
def oob (n : Nat) (c : Chan) : Bool := decide (n ≤ c.toNat)

/-- The selector `(rst, v, s1, s0, long, last)` of the cycle (30_encoding.md R74). -/
def State.selector (s : State) : Sel :=
  BitVec.ofBool s.inp.rst ++ BitVec.ofBool s.inp.rxValid ++ s.st.bits ++ BitVec.ofBool s.long ++ BitVec.ofBool s.last

end Sys2Proof.Machine
end

