-- ==== Sys2Proof/Machine/Ops.lean ====
section
/-! DEFINITION. The operations the meanings share: the gap timer, the accumulator, the commit, the table write, the
anomaly, the seven lanes, the clear of RESET, and what a clock edge does to the inputs. The block has no addressable memory
(20_memory.md R50); these are all its array accesses (42_channel_decoder.md R134). -/

namespace Sys2Proof.Machine

/-- `sat_inc(g)`: `g` if `g = GAP_MAX`, else `g + 1` (00_scope.md R12). -/
def satInc (c : Config) (g : Nat) : Nat := if g = c.gapMax then g else g + 1

/-- The part every byte operation but CAPT.LAST shares: `gap <- 1`, `pkt_done <- 0` (40_timing_sync.md R91, 10_state.md
R26). -/
def State.byteSeen (s : State) : State := { s with gap := 1, pktDone := false }

/-- The next state of the aligner: `st <- x`, `cnt <- n`. -/
def State.goto (x : St) (n : BitVec 4) (s : State) : State := { s with st := x, cnt := n }

/-- `acc[cnt] <- rx_data` (41_frame_aligner.md R106); `acc` has no entry 15, and R106 is never selected there. -/
def State.storeAcc (s : State) : State := { s with acc := s.acc.setIfInBounds s.cnt.toNat s.inp.rxData }

/-- COMMIT: all 16 bytes of `pkt` at once (42_channel_decoder.md R121). -/
def State.commit (P : Vector Byte 16) (s : State) : State := { s with pkt := P }

/-- The unpacker drives the lane wires (42_channel_decoder.md R124). -/
def State.driveLane (l : Lane) (s : State) : State := { s with lane := some l }

/-- `servo[c] <- p` (42_channel_decoder.md R126); never outside the table (R134). -/
def State.writeServo (c : Chan) (p : Pos) (s : State) : State := { s with servo := s.servo.set c.toNat p }

/-- Taking the anomaly OOB, the one condition the block detects (60_exceptions.md R141): `anom_oob <- 1`. It saves
nothing, changes no mode and transfers no control (R149); it has no return (R150). -/
def State.flagOob (s : State) : State := { s with anomOob := true }

/-- The demultiplexer on one lane: DEMUX.WRITE if the id is in the table, else DEMUX.DROP (42_channel_decoder.md R125 to
R127). -/
def State.demux (l : Lane) (s : State) : State :=
  if oob s.cfg.nTable l.ch then s.flagOob else s.writeServo l.ch l.pos

/-- One turn of the loop of DECODE7: ENT.UNPACK, then the demultiplexer (42_channel_decoder.md R128). -/
def State.takeLane (P : Vector Byte 16) (s : State) (k : Fin 7) : State :=
  ((s.driveLane (laneOf P k))).demux (laneOf P k)

/-- DECODE7: the lanes in order, each seeing the table as the one before left it (42_channel_decoder.md R128); the header
is skipped (R123). -/
def State.decodeLanes (P : Vector Byte 16) (s : State) : State := laneOrder.foldl (State.takeLane P) s

/-- The decoder's part of CAPT.LAST: COMMIT, then DECODE7 on the new packet (41_frame_aligner.md R107). -/
def State.takePacket (s : State) : State := (s.commit s.completed).decodeLanes s.completed

/-- Every element to its reset value, whatever it held (70_reset_and_hazards.md R160). -/
def State.clear (s : State) : State := State.resetWith s.cfg s.stim

/-- The operation this cycle performs: the selector, decoded (30_encoding.md R74, R75). -/
def State.fetch (s : State) : Except DecodeError Instr :=
  decode s.cfg.nTable .sel [selByte s.selector]

/-- A state the step gives a meaning: its configuration is one of this hardware (93_implementation_defined.md S3, S4). -/
def State.admitted (s : State) : Bool := s.cfg.legal

/-- The clock edge: this cycle's inputs are gone and the lane wires carry nothing (10_state.md R33, R40). -/
def State.edge (s : State) : State := { s with stim := s.stim.tail, lane := none }

/-- The byte on `rx_data` when an operation is set up from outside: the one already presented, else 0x00 (log 13). -/
def State.presented (s : State) : Byte :=
  match s.stim with
  | [] => 0
  | i :: _ => i.rxData

/-- `s` with what forms the selector (30_encoding.md R74) set so that it reads `w`: the inputs `rst` and `rx_valid`, `st`,
and, only where they differ, `gap` and `cnt` (log 13). -/
def State.withSelector (w : Sel) (s : State) : State :=
  { s with
    stim := { rst := w.getLsbD 5, rxValid := w.getLsbD 4, rxData := s.presented } :: s.stim.tail
    st := St.ofBits (w.extractLsb' 2 2)
    gap := if s.long = w.getLsbD 1 then s.gap else if w.getLsbD 1 then s.cfg.tTicks + 1 else 0
    cnt := if s.last = w.getLsbD 0 then s.cnt else if w.getLsbD 0 then 15 else 0 }

/-- `s` with the entry word `w` about to be committed as lane 6: `S_LOCKED`, `cnt = 15`, its first byte in `acc[14]`, its
second on `rx_data`. A sub-operation runs inside CAPT.LAST and nowhere else (30_encoding.md R77; log 12). -/
def State.withEntry (w : BitVec 16) (s : State) : State :=
  { s with
    stim := { rst := false, rxValid := true, rxData := w.extractLsb' 0 8 } :: s.stim.tail
    st := .locked
    cnt := 15
    acc := s.acc.set 14 (w.extractLsb' 8 8) }

end Sys2Proof.Machine
end

