-- ==== Sys2Proof/Machine/Aligner.lean ====
section
/-! DEFINITION. Family ALIGN (41_frame_aligner.md): the seven byte operations. -/

namespace Sys2Proof.Machine

/-- PRIME (R101): the first byte is discarded unread. -/
def execPrime (_x : BitVec 2) (s : State) : Host.Outcome State Fault Refusal :=
  .next (s.byteSeen.goto .seek s.cnt)

/-- SEEK.SKIP (R102): a byte inside a packet; `st` and `cnt` stay. -/
def execSeekSkip (_x : BitVec 1) (s : State) : Host.Outcome State Fault Refusal :=
  .next s.byteSeen

/-- SEEK.LOCK (R103): this byte is packet index 0. -/
def execSeekLock (_x : BitVec 1) (s : State) : Host.Outcome State Fault Refusal :=
  .next (s.byteSeen.goto .flush 1)

/-- FLUSH.SKIP (R104). -/
def execFlushSkip (_x : BitVec 1) (s : State) : Host.Outcome State Fault Refusal :=
  .next (s.byteSeen.goto s.st (s.cnt + 1))

/-- FLUSH.LAST (R105): alignment is established. -/
def execFlushLast (_x : BitVec 1) (s : State) : Host.Outcome State Fault Refusal :=
  .next (s.byteSeen.goto .locked 0)

/-- CAPT.STORE (R106): packet byte `cnt` into `acc`. -/
def execCaptStore (_x : BitVec 1) (s : State) : Host.Outcome State Fault Refusal :=
  .next (s.byteSeen.storeAcc.goto s.st (s.cnt + 1))

/-- CAPT.LAST (R107): commit the packet, decode its lanes, raise `pkt_done`; `st` and `acc` stay. -/
def execCaptLast (_x : BitVec 1) (s : State) : Host.Outcome State Fault Refusal :=
  .next { s.takePacket with pktDone := true, cnt := 0, gap := 1 }

end Sys2Proof.Machine
end

