-- ==== Sys2Proof/Machine/Decoder.lean ====
section
/-! DEFINITION. Family CHDEC (42_channel_decoder.md): the four sub-operations of CAPT.LAST. The step performs them only
inside CAPT.LAST (`State.decodeLanes`); here each is what it does on its own. -/

namespace Sys2Proof.Machine

/-- HDR.SKIP (R123): "Pseudocode: nothing." -/
def execHdrSkip (_h0 _h1 : Byte) (s : State) : Host.Outcome State Fault Refusal := .next s

/-- ENT.UNPACK (R124): `c_k` and `p_k` on the lane wires. -/
def execEntUnpack (b0 b1 : Byte) (s : State) : Host.Outcome State Fault Refusal :=
  .next (s.driveLane (unpack b0 b1))

/-- DEMUX.WRITE (R126): `servo[c] <- p`. -/
def execDemuxWrite (_f : BitVec 1) (c : Chan) (p : Pos) (s : State) : Host.Outcome State Fault Refusal :=
  .next (s.writeServo c p)

/-- DEMUX.DROP (R127): flag OOB; the table is not touched. -/
def execDemuxDrop (_f : BitVec 1) (_c : Chan) (_p : Pos) (s : State) : Host.Outcome State Fault Refusal :=
  .next s.flagOob

end Sys2Proof.Machine
end

