-- ==== Sys2Proof/Machine/Reset.lean ====
section
/-! DEFINITION. RESET (70_reset_and_hazards.md). -/

namespace Sys2Proof.Machine

/-- RESET (R160): all elements to their reset values; the parameters and the inputs are not state. -/
def execReset (_x : BitVec 5) (s : State) : Host.Outcome State Fault Refusal := .next s.clear

end Sys2Proof.Machine
end

