-- ==== Sys2Proof/Machine/Timing.lean ====
section
/-! DEFINITION. Family TSYNC (40_timing_sync.md). -/

namespace Sys2Proof.Machine

/-- TICK (R92): `gap <- sat_inc(gap)`, `pkt_done <- 0`. -/
def execTick (_x : BitVec 4) (s : State) : Host.Outcome State Fault Refusal :=
  .next { s with gap := satInc s.cfg s.gap, pktDone := false }

end Sys2Proof.Machine
end

