-- ==== Sys2Proof/Machine/Dispatch.lean ====
section
/-! DEFINITION. The meaning of each instruction: one arm per constructor. -/

namespace Sys2Proof.Machine

def exec (i : Instr) (s : State) : Host.Outcome State Fault Refusal :=
  match i with
  | .reset x => Sys2Proof.Machine.execReset x s
  | .tick x => Sys2Proof.Machine.execTick x s
  | .prime x => Sys2Proof.Machine.execPrime x s
  | .seekSkip x => Sys2Proof.Machine.execSeekSkip x s
  | .seekLock x => Sys2Proof.Machine.execSeekLock x s
  | .flushSkip x => Sys2Proof.Machine.execFlushSkip x s
  | .flushLast x => Sys2Proof.Machine.execFlushLast x s
  | .captStore x => Sys2Proof.Machine.execCaptStore x s
  | .captLast x => Sys2Proof.Machine.execCaptLast x s
  | .hdrSkip h0 h1 => Sys2Proof.Machine.execHdrSkip h0 h1 s
  | .entUnpack b0 b1 => Sys2Proof.Machine.execEntUnpack b0 b1 s
  | .demuxWrite f c p => Sys2Proof.Machine.execDemuxWrite f c p s
  | .demuxDrop f c p => Sys2Proof.Machine.execDemuxDrop f c p s

end Sys2Proof.Machine
end

