-- ==== Sys2Proof/Machine/Step.lean ====
section
/-! DEFINITION. One step: one clock cycle (00_scope.md R13, R14). -/

namespace Sys2Proof.Machine

/-- The end of a cycle: the operation's next state crosses the clock edge. -/
def atEdge : Host.Outcome State Fault Refusal → Host.Outcome State Fault Refusal
  | .next t => .next t.edge
  | .fault f => .fault f
  | .refused r => .refused r

/-- One clock cycle: form the selector, perform the one operation it picks (30_encoding.md R74), cross the clock edge. A
configuration that is none of this hardware has no meaning (93_implementation_defined.md S3, S4). -/
def step (s : State) : Host.Outcome State Fault Refusal :=
  if s.admitted then
    match s.fetch with
    | .ok i => atEdge (exec i s)
    | .error _ => .refused .noOperation
  else .refused .illegalConfig

/-- `s` with a word of the opcode table in the place the next step takes its operation from: a row of at most 8 bits is
the cycle's selector, a row of 16 bits an entry about to be committed (log 12, 13). -/
def State.withFetchWord (s : State) (nbits w : Nat) : State :=
  if nbits ≤ 8 then s.withSelector (BitVec.ofNat 6 w) else s.withEntry (BitVec.ofNat 16 w)

end Sys2Proof.Machine
end

