-- ==== Sys2Proof/Machine/Event.lean ====
section
/-! DEFINITION. The event level (41_frame_aligner.md R109): one event per received byte, and the pure DECODE7 of
42_channel_decoder.md R128 it is written with. Nothing here is called by the step; that the two levels agree is a
statement. -/

namespace Sys2Proof.Machine

/-- The state components the event level keeps (R109). -/
structure EvState where
  st : St
  cnt : BitVec 4
  acc : Vector Byte 15
  pkt : Vector Byte 16
  servo : List Pos
  anomOob : Bool
  deriving DecidableEq, Repr

/-- The event level's view of a state. -/
def State.ev (s : State) : EvState :=
  { st := s.st, cnt := s.cnt, acc := s.acc, pkt := s.pkt, servo := s.servo, anomOob := s.anomOob }

/-- DECODE7 as 42_channel_decoder.md R128 writes it, for a table of `n` entries: bits `b0[6:3]`, `b0[2:0]` and `b1` of
each lane, in order. -/
def decode7 (n : Nat) (P : Vector Byte 16) (servo : List Pos) (anom : Bool) : List Pos × Bool :=
  laneOrder.foldl
    (fun (r : List Pos × Bool) (k : Fin 7) =>
      let b0 := laneB0 P k
      let c : Chan := b0.extractLsb' 3 4
      let p : Pos := b0.extractLsb' 0 3 ++ laneB1 P k
      if c.toNat < n then (r.1.set c.toNat p, r.2) else (r.1, true))
    (servo, anom)

/-- `step_ev(S, long, d)` (41_frame_aligner.md R109), case for case. -/
def stepEv (n : Nat) (S : EvState) (long : Bool) (d : Byte) : EvState :=
  match S.st with
  | .prime => { S with st := .seek }
  | .seek => if long then { S with st := .flush, cnt := 1 } else S
  | .flush => if S.cnt = 15 then { S with st := .locked, cnt := 0 } else { S with cnt := S.cnt + 1 }
  | .locked =>
    if S.cnt ≠ 15 then { S with acc := S.acc.setIfInBounds S.cnt.toNat d, cnt := S.cnt + 1 }
    else
      let P : Vector Byte 16 := S.acc.push d
      { S with pkt := P, cnt := 0, servo := (decode7 n P S.servo S.anomOob).1,
               anomOob := (decode7 n P S.servo S.anomOob).2 }

/-- The byte events of a stretch of inputs without reset, each `(long, d)`, when `g` cycles lie between the previous byte
and the first of them, counted without bound (40_timing_sync.md R94). -/
def events (tTicks : Nat) : Nat → List Input → List (Bool × Byte)
  | _, [] => []
  | g, i :: rest =>
    if i.rxValid then (decide (tTicks < g), i.rxData) :: events tTicks 1 rest else events tTicks (g + 1) rest

/-- The event level run over a list of byte events. -/
def runEv (n : Nat) (S : EvState) (evs : List (Bool × Byte)) : EvState :=
  evs.foldl (fun S e => stepEv n S e.1 e.2) S

end Sys2Proof.Machine
end

