-- ==== Sys2Proof/Machine/Ports.lean ====
section
/-! DEFINITION. The output ports (10_state.md R34, R35): wires computed from the state at the start of the cycle. -/

namespace Sys2Proof.Machine

/-- `pkt_o`: byte `i` in bits `8i+7` down to `8i` (10_state.md R35). -/
def pktO (P : Vector Byte 16) : BitVec 128 :=
  (List.range 16).foldl (fun w i => w ||| ((P.getD i 0).setWidth 128 <<< (8 * i))) 0

/-- `servo_o`: entry `i` in bits `11i+10` down to `11i` (10_state.md R35). -/
def servoO (n : Nat) (servo : List Pos) : BitVec (11 * n) :=
  (List.range n).foldl (fun w i => w ||| ((servo.getD i 0).setWidth (11 * n) <<< (11 * i))) 0

/-- The output ports of a block with `n` table entries (10_state.md R34, R35). -/
structure Outputs (n : Nat) where
  stO : BitVec 2
  cntO : BitVec 4
  gapFound : Bool
  aligned : Bool
  anomOobO : Bool
  pktDoneO : Bool
  pktO : BitVec 128
  entCh : Vector Chan 7
  entPos : Vector Pos 7
  entOob : Vector Bool 7
  servoO : BitVec (11 * n)
  deriving DecidableEq, Repr

/-- The output ports in a state (10_state.md R36: a function of the state at the start of the cycle, never of that
cycle's inputs). -/
def outputs (s : State) : Outputs s.cfg.nTable :=
  { stO := s.st.bits
    cntO := s.cnt
    gapFound := s.st.gapFound
    aligned := s.st.aligned
    anomOobO := s.anomOob
    pktDoneO := s.pktDone
    pktO := pktO s.pkt
    entCh := Vector.ofFn (fun k : Fin 7 => (laneOf s.pkt k).ch)
    entPos := Vector.ofFn (fun k : Fin 7 => (laneOf s.pkt k).pos)
    entOob := Vector.ofFn (fun k : Fin 7 => oob s.cfg.nTable (laneOf s.pkt k).ch)
    servoO := servoO s.cfg.nTable s.servo }

end Sys2Proof.Machine
end

