-- ==== Sys2Proof/Machine/Runs.lean ====
section
/-! DEFINITION. Runs and what is observed of them (00_scope.md R18, 92_eei_decisions.md D25). -/

namespace Sys2Proof.Machine

/-- `n` cycles, stopping at the first that has no meaning (00_scope.md R18). -/
def runFor : Nat → State → Host.Outcome State Fault Refusal
  | 0, s => .next s
  | n + 1, s =>
    match step s with
    | .next t => runFor n t
    | .fault f => .fault f
    | .refused r => .refused r

/-- The inputs `l` are presented next, and nothing after them is stated. -/
def State.given (s : State) (l : List Input) : State := { s with stim := l }

/-- What the pulse `pkt_done` shows in a state: the committed packet if it is up, else nothing (10_state.md R26). -/
def State.pulse (s : State) : List (Vector Byte 16) := if s.pktDone then [s.pkt] else []

/-- The packets that the pulses after each of the next `n` cycles show, in order (00_scope.md R18: "the sequence of
`pkt_done` pulses and the `pkt` value at each"). -/
def packetsFor : Nat → State → List (Vector Byte 16)
  | 0, _ => []
  | n + 1, s =>
    match step s with
    | .next t => t.pulse ++ packetsFor n t
    | .fault _ => []
    | .refused _ => []

/-- The observable result of a finite run (00_scope.md R18): the output ports after the last cycle, and the packets the
pulses showed. -/
structure RunResult where
  nTable : Nat
  ports : Outputs nTable
  packets : List (Vector Byte 16)
  deriving DecidableEq, Repr

/-- A run starts with a cycle with `rst = 1` (00_scope.md R18). -/
def beginsWithReset : List Input → Bool
  | [] => false
  | i :: _ => i.rst

/-- The observable result of the run with the stimulus `l`, its end being the end of the stimulus (00_scope.md R18). None
where it does not begin with a reset (one of the two treatments 10_state.md R38 offers, the model's choice: log 8) or a
cycle has no meaning. -/
def runResult (l : List Input) (s : State) : Option RunResult :=
  if beginsWithReset l then
    match runFor l.length (s.given l) with
    | .next t => some { nTable := t.cfg.nTable, ports := outputs t, packets := packetsFor l.length (s.given l) }
    | .fault _ => none
    | .refused _ => none
  else none

end Sys2Proof.Machine
end

