-- ==== Sys2Proof/Machine/Stimulus.lean ====
section
/-! DEFINITION. The encoder of channel entries (30_encoding.md R82) and the stimulus notation (R83, R84): what a byte
source may present, written down as lists of inputs. Not part of the hardware. -/

namespace Sys2Proof.Machine

/-- `RST`: one cycle with `rst = 1` (R83). The spec leaves `rx_valid` and `rx_data` of that cycle open; the model's choice
(DESIGN CHOICE, log 20 and log 4) is a free value for each. -/
def stRst : Input := { rst := true, rxValid := Config.undrivenValid, rxData := Config.undrivenData }

/-- `IDLE`: one cycle with `rst = 0`, `rx_valid = 0` (R83). -/
def stIdle : Input := Input.silent

/-- `RX d`: one cycle that presents the byte `d` (R83); also `B(-, d)`. -/
def stRx (d : Byte) : Input := { rst := false, rxValid := true, rxData := d }

/-- `SILENCE(n)` (R84). -/
def silence (n : Nat) : List Input := List.replicate n stIdle

/-- `B(g, d)`: `g - 1` times `IDLE`, then `RX d` (R83, for `g >= 1`). For `g = 0`, which R83 does not give, it is `RX d`
(DESIGN CHOICE, log 20). -/
def byteAfter (g : Nat) (d : Byte) : List Input := silence (g - 1) ++ [stRx d]

/-- A list of `B(g, d)`. -/
def bytesAfter (l : List (Nat × Byte)) : List Input := l.flatMap (fun e => byteAfter e.1 e.2)

/-- The encoder: `b0 = (f << 7) | (c << 3) | (p >> 8)`, `b1 = p & 0xFF` (R82). -/
def encodeEntry (f : BitVec 1) (c : Chan) (p : Pos) : Byte × Byte :=
  (((f.setWidth 8) <<< 7) ||| ((c.setWidth 8) <<< 3) ||| ((p >>> 8).setWidth 8), (p &&& 0xFF).setWidth 8)

/-- `E(c, p)` (R84). -/
def entE (c : Chan) (p : Pos) : List Byte := [(encodeEntry 0 c p).1, (encodeEntry 0 c p).2]

/-- `EF(c, p)` (R84). -/
def entEF (c : Chan) (p : Pos) : List Byte := [(encodeEntry 1 c p).1, (encodeEntry 1 c p).2]

/-- `PKT(g0, g; d0, ..., d15)`: the first byte after a gap `g0`, the others after gaps `g` (R84). -/
def packetAfter (g0 g : Nat) : List Byte → List Input
  | [] => []
  | d :: ds => byteAfter g0 d ++ bytesAfter (ds.map (fun d => (g, d)))

/-- `PKT(d0, ..., d15)`: the nominal cadence of the example configuration (R84). -/
def packetNominal (ds : List Byte) : List Input := packetAfter 9698 87 ds

end Sys2Proof.Machine
end

