-- ==== Sys2Proof/Safety.lean ====
section
/-! DEFINITION. What claims are stated in: runs, the invariants of 10_state.md R31, the premise on a byte stream of
70_reset_and_hazards.md R164. -/

namespace Sys2Proof.Machine

/-- The operation the cycle of `s` performs is `i`: its selector decodes to it (30_encoding.md R74, R75). -/
def Picks (s : State) (i : Instr) : Prop := decode s.cfg.nTable .sel [selByte s.selector] = .ok i

/-- `n` cycles from `s` lead to `t`. -/
def Runs (n : Nat) (s t : State) : Prop := runFor n s = .next t

/-- `t` is the state after the inputs `l` have been presented in `s`. -/
def After (l : List Input) (s t : State) : Prop := Runs l.length (s.given l) t

/-- No input of the list asserts reset. -/
def NoReset (l : List Input) : Prop := ∀ i ∈ l, i.rst = false

/-- The gap of every byte of the list is at least one tick, as it is on a clocked input (30_encoding.md R83). -/
def Ticked (l : List (Nat × Byte)) : Prop := ∀ e ∈ l, 1 ≤ e.1

/-- Every byte of the list comes after a short gap (40_timing_sync.md R93: not greater than the threshold). -/
def ShortGaps (c : Config) (l : List (Nat × Byte)) : Prop := ∀ e ∈ l, 1 ≤ e.1 ∧ e.1 ≤ c.tTicks

/-- One packet on a well-formed stream: 16 bytes, the first after a long gap, the others after short gaps
(70_reset_and_hazards.md R164). -/
def GoodPacket (c : Config) (l : List (Nat × Byte)) : Prop :=
  l.length = 16 ∧ (∃ g d rest, l = (g, d) :: rest ∧ c.tTicks < g ∧ ShortGaps c rest)

/-- `G_in <= T_TICKS < G_out`: the threshold separates the two kinds of gap (70_reset_and_hazards.md R164). -/
def Separates (c : Config) (gIn gOut : Nat) : Prop := gIn ≤ c.tTicks ∧ c.tTicks < gOut

/-- The bytes of a list of byte events. -/
def bytesOf (l : List (Nat × Byte)) : List Byte := l.map Prod.snd

/-- Instructions performed one after the other, each by its own meaning. -/
def execAll : List Instr → State → Host.Outcome State Fault Refusal
  | [], s => .next s
  | i :: is, s =>
    match exec i s with
    | .next t => execAll is t
    | .fault f => .fault f
    | .refused r => .refused r

/-- The sub-operations of CAPT.LAST on the packet `P`, in order, for a table of `n` entries: HDR.SKIP, then for each lane
ENT.UNPACK and the demultiplexer operation its word selects (30_encoding.md R77). -/
def subOperations (n : Nat) (P : Vector Byte 16) : List Instr :=
  .hdrSkip P[0] P[1] ::
    laneOrder.flatMap (fun k => [.entUnpack (laneB0 P k) (laneB1 P k), decodeDemux n (laneB0 P k ++ laneB1 P k)])

/-- The invariants of a state: the ones of 10_state.md R31 that speak of one state, and what R28, R40, R107 add to them. -/
structure State.Inv (s : State) : Prop where
  /-- The parameters are those of this hardware (00_scope.md R10, 40_timing_sync.md R94). -/
  config : s.cfg.legal = true
  /-- R31 (1). -/
  seeking_cnt : s.st = .prime ∨ s.st = .seek → s.cnt = 0
  /-- R31 (2). -/
  flush_cnt : s.st = .flush → s.cnt ≠ 0
  /-- R31 (4). -/
  gap_le : s.gap ≤ s.cfg.gapMax
  /-- R31 (6), its first half: once a byte has come, `gap >= 1`. -/
  gap_pos : s.st ≠ .prime → 1 ≤ s.gap
  /-- R31 (7), for the state itself: a completed packet leaves the block locked at a packet boundary. -/
  done_locked : s.pktDone = true → s.st = .locked ∧ s.cnt = 0
  /-- R107's corner case: after a commit `acc` equals `pkt[0..14]`. -/
  done_acc : s.pktDone = true → ∀ i : Fin 15, s.acc[i.val] = s.pkt[i.val]
  /-- R27: the table has `N_TABLE` entries. -/
  servo_length : s.servo.length = s.cfg.nTable
  /-- R31 (10). -/
  servo_high : ∀ i, 16 ≤ i → s.servo.getD i 0 = 0
  /-- R31 (9), for the states in which no CAPT.LAST can have occurred since reset. -/
  unlocked_clear : s.st ≠ .locked →
    s.acc = Vector.replicate 15 0 ∧ s.pkt = Vector.replicate 16 0 ∧ s.servo = List.replicate s.cfg.nTable 0 ∧
      s.anomOob = false
  /-- R28: with `N_TABLE >= 16` the flag stays 0. -/
  no_anomaly : 16 ≤ s.cfg.nTable → s.anomOob = false
  /-- R40: nothing is in flight between cycles. -/
  wires : s.lane = none

end Sys2Proof.Machine
end

