-- ==== Sys2Proof/Certificates/Slice0/Obligations.lean ====
section
/-! DEFINITION. The statements about the block, in the order of OBLIGATIONS.json: one operation each, then the decoder, the
step, the whole machine, and runs. A docstring names the rule a statement comes from, and says where the spec marks the
point as its own decision or derivation. -/

open Sys2Proof Sys2Proof.Machine

/-! ## One operation: its effect, and that it completes -/

/-- R160. RESET completes in every state and gives every element the reset value, whatever it held; the parameters and the
inputs to come are not state. (The spec marks most of the values as its decision D15.) -/
def Obligations.ResetClearsEveryElement : Prop :=
  (∀ (x : BitVec 5) (s : State),
    exec (.reset x) s =
      .next { cfg := s.cfg, st := .prime, cnt := 0, gap := 0, acc := Vector.replicate 15 0x00,
              pkt := Vector.replicate 16 0x00, pktDone := false, servo := List.replicate s.cfg.nTable 0,
              anomOob := false, lane := none, stim := s.stim }) ∧
  ∀ s : State, s.inp.rst = true → ∃ x, Picks s (.reset x)

/-- R92. TICK completes in every state: `gap <- sat_inc(gap)`, `pkt_done <- 0`, "Nothing else changes". -/
def Obligations.TickCountsUpAndSaturates : Prop :=
  (∀ (x : BitVec 4) (s : State),
    exec (.tick x) s =
      .next { s with gap := if s.gap = 2 ^ s.cfg.gapW - 1 then s.gap else s.gap + 1, pktDone := false }) ∧
  ∀ s : State, s.inp.rst = false → s.inp.rxValid = false → ∃ x, Picks s (.tick x)

/-- R101. PRIME completes in every state: to `S_SEEK`, the byte unread, `cnt` as it was. -/
def Obligations.PrimeDiscardsTheByte : Prop :=
  (∀ (x : BitVec 2) (s : State), exec (.prime x) s = .next { s with st := .seek, gap := 1, pktDone := false }) ∧
  ∀ s : State, s.inp.rst = false → s.inp.rxValid = true → s.st = .prime → ∃ x, Picks s (.prime x)

/-- R102. SEEK.SKIP completes in every state: only `gap` and `pkt_done` are written. -/
def Obligations.SeekSkipStays : Prop :=
  (∀ (x : BitVec 1) (s : State), exec (.seekSkip x) s = .next { s with gap := 1, pktDone := false }) ∧
  ∀ s : State, s.inp.rst = false → s.inp.rxValid = true → s.st = .seek → s.gap ≤ s.cfg.tTicks → ∃ x, Picks s (.seekSkip x)

/-- R103. SEEK.LOCK completes in every state: to `S_FLUSH` with `cnt = 1`. -/
def Obligations.SeekLockStartsTheFlush : Prop :=
  (∀ (x : BitVec 1) (s : State), exec (.seekLock x) s = .next { s with st := .flush, cnt := 1, gap := 1, pktDone := false }) ∧
  ∀ s : State, s.inp.rst = false → s.inp.rxValid = true → s.st = .seek → s.cfg.tTicks < s.gap → ∃ x, Picks s (.seekLock x)

/-- R104. FLUSH.SKIP completes wherever it is selected (`cnt != 15`) and only counts: the next `cnt` is one more, as a
number. -/
def Obligations.FlushSkipCounts : Prop :=
  (∀ (x : BitVec 1) (s : State), s.cnt ≠ 15 →
    ∃ n : BitVec 4, n.toNat = s.cnt.toNat + 1 ∧
      exec (.flushSkip x) s = .next { s with cnt := n, gap := 1, pktDone := false }) ∧
  ∀ s : State, s.inp.rst = false → s.inp.rxValid = true → s.st = .flush → s.cnt ≠ 15 → ∃ x, Picks s (.flushSkip x)

/-- R105. FLUSH.LAST completes in every state: to `S_LOCKED` with `cnt = 0`; nothing is committed. -/
def Obligations.FlushLastEstablishesAlignment : Prop :=
  (∀ (x : BitVec 1) (s : State), exec (.flushLast x) s = .next { s with st := .locked, cnt := 0, gap := 1, pktDone := false }) ∧
  ∀ s : State, s.inp.rst = false → s.inp.rxValid = true → s.st = .flush → s.cnt = 15 → ∃ x, Picks s (.flushLast x)

/-- R106. CAPT.STORE completes wherever it is selected (`cnt != 15`): `acc[cnt]` takes `rx_data`, every other byte of
`acc` and every other element but `cnt`, `gap`, `pkt_done` is as before. -/
def Obligations.CaptStoreWritesOneByte : Prop :=
  (∀ (x : BitVec 1) (s : State), s.cnt ≠ 15 →
    ∃ (n : BitVec 4) (a : Vector Byte 15), n.toNat = s.cnt.toNat + 1 ∧
      exec (.captStore x) s = .next { s with acc := a, cnt := n, gap := 1, pktDone := false } ∧
      ∀ i : Fin 15, a[i.val] = if i.val = s.cnt.toNat then s.inp.rxData else s.acc[i.val]) ∧
  ∀ s : State, s.inp.rst = false → s.inp.rxValid = true → s.st = .locked → s.cnt ≠ 15 → ∃ x, Picks s (.captStore x)

/-- R107, R121, R128. CAPT.LAST completes in every state: the packet is `acc[0..14]` then `rx_data`, the table and the flag
are DECODE7's, `pkt_done = 1`, `cnt = 0`, `gap = 1`; `st` and `acc` stay. (That all of it is one clock edge is the spec's
decision D11. The lane wires are the model's own, log 5, and are not spoken of.) -/
def Obligations.CaptLastCommitsAndDecodes : Prop :=
  (∀ (x : BitVec 1) (s : State),
    ∃ t, exec (.captLast x) s = .next t ∧
      t.pkt.toList = s.acc.toList ++ [s.inp.rxData] ∧
      (t.servo, t.anomOob) = decode7 s.cfg.nTable t.pkt s.servo s.anomOob ∧
      t.pktDone = true ∧ t.cnt = 0 ∧ t.gap = 1 ∧
      t.st = s.st ∧ t.acc = s.acc ∧ t.cfg = s.cfg ∧ t.stim = s.stim) ∧
  ∀ s : State, s.inp.rst = false → s.inp.rxValid = true → s.st = .locked → s.cnt = 15 → ∃ x, Picks s (.captLast x)

/-- R123. HDR.SKIP completes in every state, for every header, and changes nothing; and the header bytes are not read by
any lane. -/
def Obligations.HdrSkipDoesNothing : Prop :=
  (∀ (h0 h1 : Byte) (s : State), exec (.hdrSkip h0 h1) s = .next s) ∧
  ∀ P Q : Vector Byte 16, (∀ i : Fin 16, 2 ≤ i.val → P[i.val] = Q[i.val]) → ∀ k : Fin 7, laneOf P k = laneOf Q k

/-- R124. ENT.UNPACK completes in every state, for every pair of bytes: `c = b0[6:3]`, `p = (b0[2:0], b1[7:0])` on the
lane wires; no element of R20 changes. After the commit the ports of each lane show the same of the packet. -/
def Obligations.EntUnpackSplitsTheEntry : Prop :=
  (∀ (b0 b1 : Byte) (s : State),
    exec (.entUnpack b0 b1) s =
      .next { s with lane := some { ch := b0.extractLsb' 3 4, pos := b0.extractLsb' 0 3 ++ b1 } }) ∧
  ∀ (s : State) (k : Fin 7),
    some ({ ch := (outputs s).entCh[k.val], pos := (outputs s).entPos[k.val] } : Lane) =
      match exec (.entUnpack s.pkt[2 + 2 * k.val] s.pkt[3 + 2 * k.val]) s with
      | .next t => t.lane
      | .fault _ => none
      | .refused _ => none

/-- R126. DEMUX.WRITE completes wherever it is selected (`c < N_TABLE`, the table having its `N_TABLE` entries): the entry
`c` holds `p`, every other entry and every other element is as before. -/
def Obligations.DemuxWriteOverwritesOneEntry : Prop :=
  ∀ (f : BitVec 1) (c : Chan) (p : Pos) (s : State),
    s.servo.length = s.cfg.nTable → c.toNat < s.cfg.nTable →
    ∃ l : List Pos, exec (.demuxWrite f c p) s = .next { s with servo := l } ∧
      l.length = s.servo.length ∧ l[c.toNat]? = some p ∧ ∀ i, i ≠ c.toNat → l[i]? = s.servo[i]?

/-- R127. DEMUX.DROP completes wherever it is selected (`c >= N_TABLE`): the flag is set, the table is not touched; a
lane of the committed packet with such an id shows it on `ent_oob`. -/
def Obligations.DemuxDropFlagsAndDiscards : Prop :=
  (∀ (f : BitVec 1) (c : Chan) (p : Pos) (s : State), s.cfg.nTable ≤ c.toNat →
    exec (.demuxDrop f c p) s = .next { s with anomOob := true }) ∧
  ∀ (s : State) (k : Fin 7), s.cfg.nTable ≤ ((outputs s).entCh[k.val]).toNat → (outputs s).entOob[k.val] = true

/-! ## The decoder and the step -/

/-- R75, R73. Words written out from the spec's encodings decode to the operation they stand for (V2.15, V2.8). -/
def Obligations.WrittenWordsDecode : Prop :=
  decode 18 .sel [0b00111100] = .ok (.reset 0b11100) ∧
  decode 18 .sel [0b00001100] = .ok (.tick 0b1100) ∧
  decode 18 .sel [0b00010010] = .ok (.prime 0b10) ∧
  decode 18 .sel [0b00010101] = .ok (.seekSkip 1) ∧
  decode 18 .sel [0b00010110] = .ok (.seekLock 0) ∧
  decode 18 .sel [0b00011010] = .ok (.flushSkip 1) ∧
  decode 18 .sel [0b00011011] = .ok (.flushLast 1) ∧
  decode 18 .sel [0b00011110] = .ok (.captStore 1) ∧
  decode 18 .sel [0b00011101] = .ok (.captLast 0) ∧
  decode 18 .hdr [0x03, 0xB2] = .ok (.hdrSkip 0x03 0xB2) ∧
  decode 18 .ent [0x29, 0x01] = .ok (.entUnpack 0x29 0x01) ∧
  decode 18 .demux [0b10101001, 0b00000001] = .ok (.demuxWrite 1 5 257) ∧
  decode 6 .demux [0x78, 0x28] = .ok (.demuxDrop 0 15 40)

/-- R76 (which the spec derives from R75). Each of the 64 selector values matches exactly one row of the operation map. -/
def Obligations.EverySelectorHasOneRow : Prop :=
  ∀ w : Sel, (selTable.filter (fun r => w &&& r.mask == r.pattern)).length = 1

/-- R74, R75. Which operation a cycle performs, in terms of its inputs and the state: the nine rows of the operation map
with `long = (gap > T_TICKS)` and `last = (cnt = 15)`. -/
def Obligations.OperationMapSelects : Prop :=
  ∀ s : State, ∃ i, Picks s i ∧
    (s.inp.rst = true → ∃ x, i = .reset x) ∧
    (s.inp.rst = false → s.inp.rxValid = false → ∃ x, i = .tick x) ∧
    (s.inp.rst = false → s.inp.rxValid = true → s.st = .prime → ∃ x, i = .prime x) ∧
    (s.inp.rst = false → s.inp.rxValid = true → s.st = .seek → s.gap ≤ s.cfg.tTicks → ∃ x, i = .seekSkip x) ∧
    (s.inp.rst = false → s.inp.rxValid = true → s.st = .seek → s.cfg.tTicks < s.gap → ∃ x, i = .seekLock x) ∧
    (s.inp.rst = false → s.inp.rxValid = true → s.st = .flush → s.cnt ≠ 15 → ∃ x, i = .flushSkip x) ∧
    (s.inp.rst = false → s.inp.rxValid = true → s.st = .flush → s.cnt = 15 → ∃ x, i = .flushLast x) ∧
    (s.inp.rst = false → s.inp.rxValid = true → s.st = .locked → s.cnt ≠ 15 → ∃ x, i = .captStore x) ∧
    (s.inp.rst = false → s.inp.rxValid = true → s.st = .locked → s.cnt = 15 → ∃ x, i = .captLast x)

/-- The rule that a step runs the decoded operation (30_encoding.md section 2), with what the model's step adds: the inputs
of the cycle are consumed and the lane wires carry nothing afterwards (log 2, log 5). -/
def Obligations.StepRunsTheDecodedOperation : Prop :=
  ∀ (s : State) (i : Instr), s.cfg.legal = true → Picks s i →
    step s =
      match exec i s with
      | .next t => .next { t with stim := t.stim.tail, lane := none }
      | .fault f => .fault f
      | .refused r => .refused r

/-- R146, R76. With a configuration of this hardware the block always has a next state; with any other the model gives the
state no meaning (93_implementation_defined.md S3 and S4 refuse it). -/
def Obligations.StepIsTotal : Prop :=
  ∀ s : State,
    (s.cfg.tTicks < 2 ^ s.cfg.gapW - 1 ∧ 1 ≤ s.cfg.nTable → ∃ t, step s = .next t) ∧
    (¬ (s.cfg.tTicks < 2 ^ s.cfg.gapW - 1 ∧ 1 ≤ s.cfg.nTable) → step s = .refused .illegalConfig)

/-- Decoding the code of a well-formed instruction gives the instruction back, with every operand at every value. -/
def Obligations.DecodeOfEncode : Prop :=
  ∀ (n : Nat) (i : Instr), i.wf n = true → decode n i.slot (encode i) = .ok i

/-- Whatever decodes is well formed, belongs to its slot, and its code is the bytes it was read from: no bit is dropped and
no two words mean the same. -/
def Obligations.EncodeOfDecode : Prop :=
  ∀ (n : Nat) (sl : Slot) (bs : List Byte) (i : Instr), decode n sl bs = .ok i →
    i.wf n = true ∧ i.slot = sl ∧ encode i = bs

/-! ## The decoder of packets -/

/-- R77. CAPT.LAST is its sub-operations: from the committed packet, HDR.SKIP, then for each lane in order ENT.UNPACK and
the demultiplexer operation its word selects, each by its own meaning; then `pkt_done`, `cnt`, `gap`. -/
def Obligations.CaptLastRunsItsSubOperations : Prop :=
  ∀ (x : BitVec 1) (s : State), ∃ t,
    execAll (subOperations s.cfg.nTable s.completed) { s with pkt := s.completed } = .next t ∧
    exec (.captLast x) s = .next { t with pktDone := true, cnt := 0, gap := 1 }

/-- The closed form of DECODE7 (42_channel_decoder.md section 4, which the spec marks as derived): after CAPT.LAST each
entry of the table holds the position of the LAST lane that names it, or its old value; the flag is its old value or-ed
with the seven bounds checks. -/
def Obligations.LastLaneWins : Prop :=
  ∀ (x : BitVec 1) (s t : State), s.servo.length = s.cfg.nTable → exec (.captLast x) s = .next t →
    t.servo.length = s.cfg.nTable ∧
    (∀ i, i < s.cfg.nTable →
      (∀ k : Fin 7, (laneOf t.pkt k).ch.toNat = i → (∀ j : Fin 7, k < j → (laneOf t.pkt j).ch.toNat ≠ i) →
        t.servo[i]? = some (laneOf t.pkt k).pos) ∧
      ((∀ k : Fin 7, (laneOf t.pkt k).ch.toNat ≠ i) → t.servo[i]? = s.servo[i]?)) ∧
    (t.anomOob = true ↔ s.anomOob = true ∨ ∃ k : Fin 7, s.cfg.nTable ≤ (laneOf t.pkt k).ch.toNat)

/-- The round trip (42_channel_decoder.md section 5) with the flag bit made explicit as the encoder of 30_encoding.md
section 4 does, a form the spec marks as derived: an entry encoded as `b0 = (f << 7) | (c << 3) | (p >> 8)`,
`b1 = p & 0xFF` unpacks to the channel and the position it was made of, for every id, every position and either flag bit. -/
def Obligations.EntryRoundTrip : Prop :=
  ∀ (f : BitVec 1) (c : Chan) (p : Pos) (s : State),
    exec (.entUnpack (encodeEntry f c p).1 (encodeEntry f c p).2) s = .next { s with lane := some { ch := c, pos := p } }

/-- R132. Setting bit 7 of `b0` changes neither the channel nor the position; flipping it in a committed packet does
change `pkt_o`. -/
def Obligations.FlagBitIsIgnored : Prop :=
  (∀ (b0 b1 : Byte) (s : State), exec (.entUnpack (b0 ||| 0x80) b1) s = exec (.entUnpack b0 b1) s) ∧
  ∀ (s s' : State) (k : Fin 7), s.pkt[2 + 2 * k.val] = s'.pkt[2 + 2 * k.val] ^^^ 0x80 → (outputs s).pktO ≠ (outputs s').pktO

/-- R80 (30_encoding.md section 3). Two packets that agree but for their header bytes and the bit 7 of each entry's first
byte, both accepted, have the same lanes on the ports and leave the same table and flag; each is kept whole in `pkt`. -/
def Obligations.IgnoredBitsHaveNoEffect : Prop :=
  ∀ (x y : BitVec 1) (s s' : State),
    s.cfg = s'.cfg → s.servo = s'.servo → s.anomOob = s'.anomOob →
    (∀ k : Fin 7, (laneB0 s.completed k) ||| 0x80 = (laneB0 s'.completed k) ||| 0x80 ∧
      laneB1 s.completed k = laneB1 s'.completed k) →
    ∃ t t', exec (.captLast x) s = .next t ∧ exec (.captLast y) s' = .next t' ∧
    t.pkt = s.completed ∧ t'.pkt = s'.completed ∧ t.servo = t'.servo ∧ t.anomOob = t'.anomOob ∧
    (outputs t).entCh = (outputs t').entCh ∧ (outputs t).entPos = (outputs t').entPos ∧
    (outputs t).entOob = (outputs t').entOob

/-! ## Ports and reset -/

/-- R37. The reset state under any parameters: every element at its table value, and every output port reads zero. -/
def Obligations.ResetStateAndPorts : Prop :=
  ∀ (c : Config) (l : List Input), 1 ≤ c.nTable →
    let s := State.resetWith c l
    s.st = .prime ∧ s.cnt = 0 ∧ s.gap = 0 ∧ (∀ i : Fin 15, s.acc[i.val] = 0x00) ∧ (∀ i : Fin 16, s.pkt[i.val] = 0x00) ∧
    s.pktDone = false ∧ (∀ i, i < c.nTable → s.servo[i]? = some 0) ∧ s.servo.length = c.nTable ∧ s.anomOob = false ∧
    (outputs s).stO = 0 ∧ (outputs s).cntO = 0 ∧ (outputs s).gapFound = false ∧ (outputs s).aligned = false ∧
    (outputs s).pktDoneO = false ∧ (outputs s).pktO = 0 ∧
    (∀ k : Fin 7, (outputs s).entCh[k.val] = 0 ∧ (outputs s).entPos[k.val] = 0 ∧ (outputs s).entOob[k.val] = false) ∧
    (outputs s).servoO = 0 ∧ (outputs s).anomOobO = false

/-- R34. The status ports: `st`, `cnt`, `st[1]`, `(st = S_LOCKED)`, `anom_oob`; and in the cycle in which `aligned` first
becomes 1, `cnt = 0`. -/
def Obligations.StatusPortsShowTheAligner : Prop :=
  (∀ s : State,
    (outputs s).stO = (match s.st with | .prime => 0b00#2 | .seek => 0b01#2 | .flush => 0b10#2 | .locked => 0b11#2) ∧
    (outputs s).cntO = s.cnt ∧ (outputs s).gapFound = ((outputs s).stO).getLsbD 1 ∧
    ((outputs s).aligned = true ↔ s.st = .locked) ∧ (outputs s).anomOobO = s.anomOob) ∧
  ∀ s t : State, step s = .next t → (outputs s).aligned = false → (outputs t).aligned = true → (outputs t).cntO = 0

/-- R36. Every output is a function of the state at the start of the cycle, never of that cycle's inputs. When the 16th byte
of a packet arrives, the next cycle shows the pulse, the whole new packet, its lanes on all of `ent_ch`, `ent_pos` and
`ent_oob`, the updated table and `cnt_o = 0`. -/
def Obligations.OutputsFollowTheStateOnly : Prop :=
  (∀ (s : State) (l : List Input), outputs { s with stim := l } = outputs s) ∧
  ∀ s t : State, step s = .next t → s.inp.rst = false → s.inp.rxValid = true → s.st = .locked → s.cnt = 15 →
    (outputs t).pktDoneO = true ∧ (outputs t).pktO = pktO (s.acc.push s.inp.rxData) ∧ (outputs t).cntO = 0 ∧
    (∀ k : Fin 7, (outputs t).entCh[k.val] = (laneOf (s.acc.push s.inp.rxData) k).ch ∧
      (outputs t).entPos[k.val] = (laneOf (s.acc.push s.inp.rxData) k).pos ∧
      (outputs t).entOob[k.val] = oob t.cfg.nTable (laneOf (s.acc.push s.inp.rxData) k).ch) ∧
    (outputs t).servoO =
      servoO t.cfg.nTable (decode7 s.cfg.nTable (s.acc.push s.inp.rxData) s.servo s.anomOob).1

/-- R35. The data ports: byte `i` of the packet in bits `8i+7..8i` of `pkt_o`, entry `i` of the table in bits
`11i+10..11i` of `servo_o`, the lane outputs from the packet's bits, `ent_oob[k] = (ent_ch[k] >= N_TABLE)`. -/
def Obligations.DataPortsShowPacketAndTable : Prop :=
  ∀ s : State, s.servo.length = s.cfg.nTable →
    (outputs s).pktDoneO = s.pktDone ∧
    (∀ i : Fin 16, (outputs s).pktO.extractLsb' (8 * i.val) 8 = s.pkt[i.val]) ∧
    (∀ i, i < s.cfg.nTable → some ((outputs s).servoO.extractLsb' (11 * i) 11) = s.servo[i]?) ∧
    (∀ k : Fin 7,
      (outputs s).entCh[k.val] = s.pkt[2 + 2 * k.val].extractLsb' 3 4 ∧
      (outputs s).entPos[k.val] = s.pkt[2 + 2 * k.val].extractLsb' 0 3 ++ s.pkt[3 + 2 * k.val] ∧
      ((outputs s).entOob[k.val] = true ↔ s.cfg.nTable ≤ ((outputs s).entCh[k.val]).toNat))

/-! ## Whole-machine rules of a step -/

/-- R33. A cycle with `rst = 1` performs RESET whatever the other inputs and the state are. -/
def Obligations.ResetOverridesInputs : Prop :=
  ∀ s : State, s.cfg.legal = true → s.inp.rst = true → step s = .next (State.resetWith s.cfg s.stim.tail)

/-- R33. `rx_data` is read only in cycles with `rx_valid = 1` (and without reset): in any other its value changes nothing of
the step. 10_state.md R39 adds that outside `S_LOCKED` a byte is discarded unread. -/
def Obligations.DataIsReadOnlyWhenValid : Prop :=
  ∀ (s : State) (i : Input) (rest : List Input) (d : Byte),
    i.rst = true ∨ i.rxValid = false ∨ s.st ≠ .locked →
    step { s with stim := { i with rxData := d } :: rest } = step { s with stim := i :: rest }

/-- R110. The transition table of `(st, cnt)`: every cell with its operation, `rst = 1`, and the states R31 excludes as the
text below the table gives them. -/
def Obligations.TransitionTable : Prop :=
  ∀ s : State, s.cfg.legal = true → ∃ t i, step s = .next t ∧ Picks s i ∧
    if s.inp.rst = true then (t.st, t.cnt) = (.prime, 0) ∧ ∃ x, i = .reset x
    else if s.inp.rxValid = false then (t.st, t.cnt) = (s.st, s.cnt) ∧ ∃ x, i = .tick x
    else match s.st with
      | .prime => (t.st, t.cnt) = (.seek, s.cnt) ∧ ∃ x, i = .prime x
      | .seek =>
        if s.cfg.tTicks < s.gap then (t.st, t.cnt) = (.flush, 1) ∧ ∃ x, i = .seekLock x
        else (t.st, t.cnt) = (.seek, s.cnt) ∧ ∃ x, i = .seekSkip x
      | .flush =>
        if s.cnt = 15 then (t.st, t.cnt) = (.locked, 0) ∧ ∃ x, i = .flushLast x
        else (t.st, t.cnt) = (.flush, s.cnt + 1) ∧ ∃ x, i = .flushSkip x
      | .locked =>
        if s.cnt = 15 then (t.st, t.cnt) = (.locked, 0) ∧ ∃ x, i = .captLast x
        else (t.st, t.cnt) = (.locked, s.cnt + 1) ∧ ∃ x, i = .captStore x

/-- The write columns of the access matrix (10_state.md section 6): which cycles can change each element, and that the
parameters never change. -/
def Obligations.AccessMatrixWrites : Prop :=
  ∀ s t : State, step s = .next t → s.inp.rst = false →
    t.cfg = s.cfg ∧ t.stim = s.stim.tail ∧
    (t.st ≠ s.st → s.inp.rxValid = true ∧
      (s.st = .prime ∨ (s.st = .seek ∧ s.cfg.tTicks < s.gap) ∨ (s.st = .flush ∧ s.cnt = 15))) ∧
    (t.cnt ≠ s.cnt → s.inp.rxValid = true ∧
      ((s.st = .seek ∧ s.cfg.tTicks < s.gap) ∨ s.st = .flush ∨ s.st = .locked)) ∧
    (t.acc ≠ s.acc → s.inp.rxValid = true ∧ s.st = .locked ∧ s.cnt ≠ 15) ∧
    (t.pkt ≠ s.pkt ∨ t.servo ≠ s.servo ∨ t.anomOob ≠ s.anomOob ∨ t.pktDone = true →
      s.inp.rxValid = true ∧ s.st = .locked ∧ s.cnt = 15)

/-- R97. The gap timer after a cycle: 0 by RESET, 1 by a byte event, else up by one, held at `GAP_MAX`; in its `GAP_W`
bits it never wraps. -/
def Obligations.GapTimerRule : Prop :=
  ∀ s : State, s.cfg.legal = true → ∃ t, step s = .next t ∧
    (t.gap = if s.inp.rst = true then 0 else if s.inp.rxValid = true then 1
      else if s.gap = 2 ^ s.cfg.gapW - 1 then s.gap else s.gap + 1) ∧
    (s.gap < 2 ^ s.cfg.gapW → t.gap < 2 ^ s.cfg.gapW)

/-- R26. `pkt_done` is 1 after CAPT.LAST and 0 after every other operation. -/
def Obligations.PktDoneIsThePulseOfCaptLast : Prop :=
  ∀ s t : State, step s = .next t →
    (t.pktDone = true ↔ s.inp.rst = false ∧ s.inp.rxValid = true ∧ s.st = .locked ∧ s.cnt = 15)

/-- R28. The sticky flag: CAPT.LAST sets it if any of the packet's seven lanes has an id `>= N_TABLE`, and nothing but
RESET clears it. -/
def Obligations.AnomalyFlagRule : Prop :=
  ∀ s t : State, step s = .next t →
    (t.anomOob = true ↔ s.inp.rst = false ∧
      (s.anomOob = true ∨
        (s.inp.rxValid = true ∧ s.st = .locked ∧ s.cnt = 15 ∧
          ∃ k : Fin 7, s.cfg.nTable ≤ ((laneB0 s.completed k).extractLsb' 3 4).toNat)))

/-- R21. `st[1]` changes from 0 to 1 in SEEK.LOCK only, and back by reset only. -/
def Obligations.GapFoundChangesOnlyAtTheLock : Prop :=
  ∀ s t : State, step s = .next t →
    (s.st.gapFound = false → t.st.gapFound = true →
      s.inp.rst = false ∧ s.inp.rxValid = true ∧ s.st = .seek ∧ s.cfg.tTicks < s.gap) ∧
    (s.st.gapFound = true → t.st.gapFound = false → s.inp.rst = true)

/-- The invariants of 10_state.md section 2 (R31, which the spec derives by induction) are kept by every step. -/
def Obligations.EveryStepKeepsTheInvariants : Prop :=
  ∀ s t : State, s.Inv → step s = .next t → t.Inv

/-- The invariants of 10_state.md section 2 hold in the reset state, under every configuration of this hardware and with
any inputs to come; the model's own reset state is one of these (log 1). -/
def Obligations.ResetStateHasTheInvariants : Prop :=
  (∀ (c : Config) (l : List Input), c.legal = true → (State.resetWith c l).Inv) ∧ State.reset.Inv

/-! ## Runs -/

/-- R108. The aligner's states occur in one order only: a step without reset stays or goes to the next of `S_PRIME`,
`S_SEEK`, `S_FLUSH`, `S_LOCKED`, and over any run without reset `st` never goes back, so `S_LOCKED` is never left. -/
def Obligations.AlignerNeverGoesBack : Prop :=
  (∀ s t : State, step s = .next t → s.inp.rst = false →
    t.st = s.st ∨ (s.st, t.st) ∈ [(St.prime, St.seek), (.seek, .flush), (.flush, .locked)]) ∧
  ∀ (s t : State) (l : List Input), NoReset l → After l s t →
    s.st.bits.toNat ≤ t.st.bits.toNat ∧ (s.st = .locked → t.st = .locked)

/-- R150. The flag, once 1, stays 1 through every later operation but RESET, which clears it and everything else. -/
def Obligations.AnomalyIsSticky : Prop :=
  (∀ (s t : State) (l : List Input), NoReset l → After l s t → s.anomOob = true → t.anomOob = true) ∧
  ∀ s t : State, step s = .next t → s.inp.rst = true → t.anomOob = false ∧ t = State.resetWith s.cfg s.stim.tail

/-- The measured gap (40_timing_sync.md sections 1 and 2; the spec derives both): `n` cycles after a byte the timer reads
`min(n + 1, GAP_MAX)`, and saturation never changes the comparison with the threshold. -/
def Obligations.GapIsTheCyclesSinceTheLastByte : Prop :=
  ∀ (s : State) (d : Byte) (l : List Input), s.cfg.legal = true →
    (∀ i ∈ l, i.rst = false ∧ i.rxValid = false) →
    ∃ t, After (stRx d :: l) s t ∧ t.gap = min (l.length + 1) s.cfg.gapMax ∧
      (t.long = true ↔ s.cfg.tTicks < l.length + 1)

/-- The event level (41_frame_aligner.md section 4, which the spec derives): over any inputs without reset the components
`(st, cnt, acc, pkt, servo, anom_oob)` are those of `step_ev` run over the byte events, each reduced to `(long, d)` with
the gap counted without bound. -/
def Obligations.EventLevelAgrees : Prop :=
  ∀ (s : State) (l : List Input), s.cfg.legal = true → s.gap ≤ s.cfg.gapMax → NoReset l →
    ∃ t, After l s t ∧ t.ev = runEv s.cfg.nTable s.ev (events s.cfg.tTicks s.gap l)

/-- Received data never alters the block's control (20_memory.md section 6, which the spec derives): two runs whose inputs
agree in `rst` and `rx_valid`, from states that agree in `st`, `cnt`, `gap`, `pkt_done` and the parameters, agree in these
ever after, whatever the bytes and the arrays are. -/
def Obligations.DataNeverAltersControl : Prop :=
  ∀ (s s' t t' : State) (l l' : List Input),
    s.cfg = s'.cfg → s.st = s'.st → s.cnt = s'.cnt → s.gap = s'.gap → s.pktDone = s'.pktDone →
    l.map (fun i => (i.rst, i.rxValid)) = l'.map (fun i => (i.rst, i.rxValid)) →
    After l s t → After l' s' t' →
    t.st = t'.st ∧ t.cnt = t'.cnt ∧ t.gap = t'.gap ∧ t.pktDone = t'.pktDone

/-- Once the lock is taken gaps are ignored (70_reset_and_hazards.md section 3): in `S_FLUSH` and `S_LOCKED` two byte
sequences with the same bytes and any gaps lead to the same `(st, cnt, acc, pkt, servo, anom_oob)`. -/
def Obligations.GapsAreIgnoredAfterTheLock : Prop :=
  ∀ (s : State) (l l' : List (Nat × Byte)), s.cfg.legal = true → s.st = .flush ∨ s.st = .locked →
    Ticked l → Ticked l' → bytesOf l = bytesOf l' →
    ∃ t t', After (bytesAfter l) s t ∧ After (bytesAfter l') s t' ∧ t.ev = t'.ev

/-- Forwarding fidelity (42_channel_decoder.md section 2, which the spec derives): at a packet boundary the next 16 bytes,
at any gaps, are the committed packet, byte for byte and in order, and `pkt_done` pulses. -/
def Obligations.ForwardingFidelity : Prop :=
  ∀ (s : State) (l : List (Nat × Byte)), s.cfg.legal = true → s.st = .locked → s.cnt = 0 → Ticked l → l.length = 16 →
    ∃ t, After (bytesAfter l) s t ∧ t.pkt.toList = bytesOf l ∧ t.pktDone = true ∧ t.st = .locked ∧ t.cnt = 0

/-- Idempotent table update (42_channel_decoder.md section 5; the spec marks that the flag and the table are unchanged as
derived): decoding the same packet twice in succession leaves the table, the flag, the packet and all lane outputs as
decoding it once did, whatever the gaps of the two; the pulse comes again. -/
def Obligations.SamePacketTwiceIsOnce : Prop :=
  ∀ (s : State) (l l' : List (Nat × Byte)), s.cfg.legal = true → s.st = .locked → s.cnt = 0 →
    Ticked l → Ticked l' → l.length = 16 → bytesOf l = bytesOf l' →
    ∃ t u, After (bytesAfter l) s t ∧ After (bytesAfter l') t u ∧
      u.servo = t.servo ∧ u.anomOob = t.anomOob ∧ u.pkt = t.pkt ∧
      (outputs u).entCh = (outputs t).entCh ∧ (outputs u).entPos = (outputs t).entPos ∧
      (outputs u).entOob = (outputs t).entOob ∧ u.pktDone = true

/-- R142. Never converging is ordinary behaviour: with no byte at all, and with bytes of which none but the first comes
after a gap greater than the threshold, `gap_found` and `aligned` are 0, `pkt_done` is 0 and nothing is flagged, for ever
(at any point of such a stream, and after any silence at its end). -/
def Obligations.NeverConvergingIsNotSignalled : Prop :=
  ∀ (s : State) (n : Nat), s.cfg.legal = true →
    (∃ t, After (stRst :: silence n) s t ∧ t.st = .prime ∧ (outputs t).gapFound = false ∧
      (outputs t).aligned = false ∧ t.pktDone = false ∧ t.anomOob = false) ∧
    (∀ (g : Nat) (d : Byte) (l : List (Nat × Byte)), ShortGaps s.cfg l →
      ∃ t, After (stRst :: bytesAfter ((g, d) :: l) ++ silence n) s t ∧ t.st = .seek ∧ (outputs t).gapFound = false ∧
        (outputs t).aligned = false ∧ t.pktDone = false ∧ t.anomOob = false)

/-- The first 17 to 32 bytes are discarded (41_frame_aligner.md section 3, which the spec derives): after reset, a first
byte, any bytes after short gaps, one byte after a long gap and 15 more, the block is aligned at a packet boundary and
nothing has been committed. -/
def Obligations.AlignmentDiscardsTheLockingPacket : Prop :=
  ∀ (s : State) (first lock : Nat × Byte) (pre fl : List (Nat × Byte)), s.cfg.legal = true →
    ShortGaps s.cfg pre → s.cfg.tTicks < lock.1 → Ticked fl → fl.length = 15 →
    ∃ t, After (stRst :: bytesAfter (first :: pre ++ lock :: fl)) s t ∧ t.st = .locked ∧ t.cnt = 0 ∧
      t.pktDone = false ∧ t.pkt = Vector.replicate 16 0 ∧ t.servo = List.replicate s.cfg.nTable 0 ∧ t.anomOob = false

/-- Byte accounting from reset (41_frame_aligner.md section 3, which the spec derives): with the lock taken on byte `L`,
the committed packets are the bytes `L+16+16m` to `L+31+16m`, in order, whatever the gaps after byte `L` are. Here `mid` is
the `m` packets before the last one. -/
def Obligations.ByteAccountingFromReset : Prop :=
  ∀ (s : State) (first lock : Nat × Byte) (pre fl mid last : List (Nat × Byte)), s.cfg.legal = true →
    ShortGaps s.cfg pre → s.cfg.tTicks < lock.1 → Ticked fl → fl.length = 15 →
    Ticked mid → mid.length % 16 = 0 → Ticked last → last.length = 16 →
    ∃ t, After (stRst :: bytesAfter (first :: pre ++ lock :: fl ++ mid ++ last)) s t ∧
      t.st = .locked ∧ t.cnt = 0 ∧ t.pktDone = true ∧ t.pkt.toList = bytesOf last

/-- Alignment correctness, the document's testable property (41_frame_aligner.md section 3): wherever in a packet reset is
released, on a stream whose packets each begin after a long gap and have short gaps inside, from the second whole packet on
every committed packet is a real packet, whole and in order: it starts with the byte that followed a long gap. -/
def Obligations.AlignmentCorrectness : Prop :=
  ∀ (s : State) (first : Nat × Byte) (rest : List (Nat × Byte)) (packets : List (List (Nat × Byte)))
    (last : List (Nat × Byte)), s.cfg.legal = true →
    ShortGaps s.cfg rest → rest.length ≤ 15 →
    packets ≠ [] → (∀ p ∈ packets, GoodPacket s.cfg p) → GoodPacket s.cfg last →
    ∃ t, After (stRst :: bytesAfter (first :: rest ++ packets.flatten ++ last)) s t ∧
      (outputs t).aligned = true ∧ t.cnt = 0 ∧ t.pktDone = true ∧ t.pkt.toList = bytesOf last

/-- From seconds to ticks (40_timing_sync.md section 2, which the spec derives): with `T = num / den` seconds and a clock
of `f` hertz, a gap of `n` ticks is longer than `T` exactly if `n > floor(T * F_CLK)`. -/
def Obligations.SecondsToTicks : Prop :=
  ∀ num den f n : Nat, 0 < den → (num * f < n * den ↔ ticksOf num den f < n)

/-- One cycle of the event level (41_frame_aligner.md section 4, which the spec derives): a byte event takes the components
`(st, cnt, acc, pkt, servo, anom_oob)` where `step_ev` on `(long, d)` does, and a cycle without byte or reset changes none
of them. -/
def Obligations.EventLevelOfOneCycle : Prop :=
  ∀ s t : State, step s = .next t → s.inp.rst = false →
    t.ev = if s.inp.rxValid = true then stepEv s.cfg.nTable s.ev (decide (s.cfg.tTicks < s.gap)) s.inp.rxData else s.ev

/-- One cycle keeps two states in agreement on the control (20_memory.md section 6, which the spec derives): if they agree
in the parameters, `st`, `cnt`, `gap`, `pkt_done` and their inputs in `rst` and `rx_valid`, then so do their next states in
the parameters, `st`, `cnt`, `gap`, `pkt_done`, whatever the bytes and the arrays are; and one has a next state exactly if
the other has. -/
def Obligations.EveryStepKeepsControlAgreement : Prop :=
  ∀ s s' : State, s.cfg = s'.cfg → s.st = s'.st → s.cnt = s'.cnt → s.gap = s'.gap → s.pktDone = s'.pktDone →
    s.inp.rst = s'.inp.rst → s.inp.rxValid = s'.inp.rxValid →
    ((∃ t, step s = .next t) ↔ ∃ t', step s' = .next t') ∧
    ∀ t t', step s = .next t → step s' = .next t' →
      t.cfg = t'.cfg ∧ t.st = t'.st ∧ t.cnt = t'.cnt ∧ t.gap = t'.gap ∧ t.pktDone = t'.pktDone

/-- A run's observable result (00_scope.md section 6). A run that begins with a reset cycle goes on to the end of its stimulus, whatever it
is (the block never halts), and its result is every output port after the last cycle together with the packets that
`pkt_done` shows, one for each of the states `us` after a cycle in which it is up, the last state's included; the result
does not depend on the state before the reset. (The spec marks what a run and its result are as its decision D25.) The last
clause is the model's choice, log 8: a stimulus that does not begin with a reset has no result, one of the two treatments
10_state.md section 5 offers. -/
def Obligations.ObservableResultOfARun : Prop :=
  (∀ (s : State) (l : List Input), s.cfg.legal = true → beginsWithReset l = true →
    ∃ (us : List State) (t : State), us.length = l.length ∧ us.getLast? = some t ∧
      (∀ (k : Nat) (h : k < us.length), After (l.take (k + 1)) s us[k]) ∧
      runResult l s =
        some { nTable := t.cfg.nTable, ports := outputs t,
               packets := (us.filter (fun u => u.pktDone)).map (fun u => u.pkt) } ∧
      ∀ s' : State, s'.cfg = s.cfg → runResult l s' = runResult l s) ∧
  ∀ (s : State) (l : List Input), beginsWithReset l = false → runResult l s = none

/-- The pulses are the commits (41_frame_aligner.md section 4): one more cycle adds one packet to those observed if it is a
CAPT.LAST, the packet it completes, and none otherwise. -/
def Obligations.PulsesAreTheCommits : Prop :=
  ∀ (s t : State) (l : List Input) (i : Input), s.cfg.legal = true → After l s t →
    packetsFor (l.length + 1) (s.given (l ++ [i])) =
      packetsFor l.length (s.given l) ++
        (if i.rst = false ∧ i.rxValid = true ∧ t.st = .locked ∧ t.cnt = 15 then [t.acc.push i.rxData] else [])

/-- The whole sequence of packets (41_frame_aligner.md section 3, which the spec derives): in a run that begins with reset,
with the lock taken on byte `L`, the packets observed are exactly the successive groups of 16 of the bytes from `L+16` on,
none lost, none added, whatever their gaps are; `part` is the bytes after the last whole group. -/
def Obligations.PacketsOfARunAreTheStream : Prop :=
  ∀ (s : State) (first lock : Nat × Byte) (pre fl part : List (Nat × Byte)) (packets : List (List (Nat × Byte))),
    s.cfg.legal = true → ShortGaps s.cfg pre → s.cfg.tTicks < lock.1 → Ticked fl → fl.length = 15 →
    (∀ p ∈ packets, Ticked p ∧ p.length = 16) → Ticked part → part.length < 16 →
    ∃ r, runResult (stRst :: bytesAfter (first :: pre ++ lock :: fl ++ packets.flatten ++ part)) s = some r ∧
      r.packets.map Vector.toList = packets.map bytesOf ∧ r.ports.aligned = true ∧ r.ports.cntO.toNat = part.length
end

