-- ==== Sys2Proof/Laws/Decode.lean ====
section
/-! SUPPORT. The operation map is total: every selector has a row (30_encoding.md R76). -/

namespace Sys2Proof

/-- Every one of the 64 selectors is decoded. -/
theorem decodeSel_isOk : ∀ w : Sel, (decodeSel w).toOption.isSome = true := by decide

/-- A selector in its byte decodes as the selector does. -/
theorem decode_selByte (n : Nat) : ∀ w : Sel, decode n .sel [selByte w] = decodeSel w := by
  intro w
  have h1 : (selByte w).extractLsb' 6 2 = 0 := by revert w; decide
  have h2 : (selByte w).extractLsb' 0 6 = w := by revert w; decide
  simp only [decode, h1, h2, if_true]

end Sys2Proof
end

