-- ==== Sys2Proof/Laws/State.lean ====
section
/-! SUPPORT. One lemma per field per update, true by rfl, so that no later proof unfolds a record update. -/

namespace Sys2Proof

/-- A legal configuration, in words (00_scope.md R9, 40_timing_sync.md R94). -/
theorem Config.legal_iff (c : Config) : c.legal = true ↔ c.tTicks < c.gapMax ∧ 1 ≤ c.nTable := by
  simp [Config.legal]

/-- The timer of a legal configuration can reach 1. -/
theorem Config.one_le_gapMax {c : Config} (h : c.legal = true) : 1 ≤ c.gapMax := by
  have := (c.legal_iff.1 h).1
  omega

end Sys2Proof

namespace Sys2Proof.Machine

variable (s : State)

/-! `byteSeen` -/

@[simp] theorem State.byteSeen_cfg : s.byteSeen.cfg = s.cfg := rfl
@[simp] theorem State.byteSeen_st : s.byteSeen.st = s.st := rfl
@[simp] theorem State.byteSeen_cnt : s.byteSeen.cnt = s.cnt := rfl
@[simp] theorem State.byteSeen_gap : s.byteSeen.gap = 1 := rfl
@[simp] theorem State.byteSeen_acc : s.byteSeen.acc = s.acc := rfl
@[simp] theorem State.byteSeen_pkt : s.byteSeen.pkt = s.pkt := rfl
@[simp] theorem State.byteSeen_pktDone : s.byteSeen.pktDone = false := rfl
@[simp] theorem State.byteSeen_servo : s.byteSeen.servo = s.servo := rfl
@[simp] theorem State.byteSeen_anomOob : s.byteSeen.anomOob = s.anomOob := rfl
@[simp] theorem State.byteSeen_lane : s.byteSeen.lane = s.lane := rfl
@[simp] theorem State.byteSeen_stim : s.byteSeen.stim = s.stim := rfl

/-! `goto` -/

@[simp] theorem State.goto_cfg (x : St) (n : BitVec 4) : (s.goto x n).cfg = s.cfg := rfl
@[simp] theorem State.goto_st (x : St) (n : BitVec 4) : (s.goto x n).st = x := rfl
@[simp] theorem State.goto_cnt (x : St) (n : BitVec 4) : (s.goto x n).cnt = n := rfl
@[simp] theorem State.goto_gap (x : St) (n : BitVec 4) : (s.goto x n).gap = s.gap := rfl
@[simp] theorem State.goto_acc (x : St) (n : BitVec 4) : (s.goto x n).acc = s.acc := rfl
@[simp] theorem State.goto_pkt (x : St) (n : BitVec 4) : (s.goto x n).pkt = s.pkt := rfl
@[simp] theorem State.goto_pktDone (x : St) (n : BitVec 4) : (s.goto x n).pktDone = s.pktDone := rfl
@[simp] theorem State.goto_servo (x : St) (n : BitVec 4) : (s.goto x n).servo = s.servo := rfl
@[simp] theorem State.goto_anomOob (x : St) (n : BitVec 4) : (s.goto x n).anomOob = s.anomOob := rfl
@[simp] theorem State.goto_lane (x : St) (n : BitVec 4) : (s.goto x n).lane = s.lane := rfl
@[simp] theorem State.goto_stim (x : St) (n : BitVec 4) : (s.goto x n).stim = s.stim := rfl

/-! `storeAcc` -/

@[simp] theorem State.storeAcc_cfg : s.storeAcc.cfg = s.cfg := rfl
@[simp] theorem State.storeAcc_st : s.storeAcc.st = s.st := rfl
@[simp] theorem State.storeAcc_cnt : s.storeAcc.cnt = s.cnt := rfl
@[simp] theorem State.storeAcc_gap : s.storeAcc.gap = s.gap := rfl
@[simp] theorem State.storeAcc_acc : s.storeAcc.acc = s.acc.setIfInBounds s.cnt.toNat s.inp.rxData := rfl
@[simp] theorem State.storeAcc_pkt : s.storeAcc.pkt = s.pkt := rfl
@[simp] theorem State.storeAcc_pktDone : s.storeAcc.pktDone = s.pktDone := rfl
@[simp] theorem State.storeAcc_servo : s.storeAcc.servo = s.servo := rfl
@[simp] theorem State.storeAcc_anomOob : s.storeAcc.anomOob = s.anomOob := rfl
@[simp] theorem State.storeAcc_lane : s.storeAcc.lane = s.lane := rfl
@[simp] theorem State.storeAcc_stim : s.storeAcc.stim = s.stim := rfl

/-! `commit` -/

@[simp] theorem State.commit_cfg (P : Vector Byte 16) : (s.commit P).cfg = s.cfg := rfl
@[simp] theorem State.commit_st (P : Vector Byte 16) : (s.commit P).st = s.st := rfl
@[simp] theorem State.commit_cnt (P : Vector Byte 16) : (s.commit P).cnt = s.cnt := rfl
@[simp] theorem State.commit_gap (P : Vector Byte 16) : (s.commit P).gap = s.gap := rfl
@[simp] theorem State.commit_acc (P : Vector Byte 16) : (s.commit P).acc = s.acc := rfl
@[simp] theorem State.commit_pkt (P : Vector Byte 16) : (s.commit P).pkt = P := rfl
@[simp] theorem State.commit_pktDone (P : Vector Byte 16) : (s.commit P).pktDone = s.pktDone := rfl
@[simp] theorem State.commit_servo (P : Vector Byte 16) : (s.commit P).servo = s.servo := rfl
@[simp] theorem State.commit_anomOob (P : Vector Byte 16) : (s.commit P).anomOob = s.anomOob := rfl
@[simp] theorem State.commit_lane (P : Vector Byte 16) : (s.commit P).lane = s.lane := rfl
@[simp] theorem State.commit_stim (P : Vector Byte 16) : (s.commit P).stim = s.stim := rfl

/-! `driveLane` -/

@[simp] theorem State.driveLane_cfg (l : Lane) : (s.driveLane l).cfg = s.cfg := rfl
@[simp] theorem State.driveLane_st (l : Lane) : (s.driveLane l).st = s.st := rfl
@[simp] theorem State.driveLane_cnt (l : Lane) : (s.driveLane l).cnt = s.cnt := rfl
@[simp] theorem State.driveLane_gap (l : Lane) : (s.driveLane l).gap = s.gap := rfl
@[simp] theorem State.driveLane_acc (l : Lane) : (s.driveLane l).acc = s.acc := rfl
@[simp] theorem State.driveLane_pkt (l : Lane) : (s.driveLane l).pkt = s.pkt := rfl
@[simp] theorem State.driveLane_pktDone (l : Lane) : (s.driveLane l).pktDone = s.pktDone := rfl
@[simp] theorem State.driveLane_servo (l : Lane) : (s.driveLane l).servo = s.servo := rfl
@[simp] theorem State.driveLane_anomOob (l : Lane) : (s.driveLane l).anomOob = s.anomOob := rfl
@[simp] theorem State.driveLane_lane (l : Lane) : (s.driveLane l).lane = some l := rfl
@[simp] theorem State.driveLane_stim (l : Lane) : (s.driveLane l).stim = s.stim := rfl

/-! `writeServo` -/

@[simp] theorem State.writeServo_cfg (c : Chan) (p : Pos) : (s.writeServo c p).cfg = s.cfg := rfl
@[simp] theorem State.writeServo_st (c : Chan) (p : Pos) : (s.writeServo c p).st = s.st := rfl
@[simp] theorem State.writeServo_cnt (c : Chan) (p : Pos) : (s.writeServo c p).cnt = s.cnt := rfl
@[simp] theorem State.writeServo_gap (c : Chan) (p : Pos) : (s.writeServo c p).gap = s.gap := rfl
@[simp] theorem State.writeServo_acc (c : Chan) (p : Pos) : (s.writeServo c p).acc = s.acc := rfl
@[simp] theorem State.writeServo_pkt (c : Chan) (p : Pos) : (s.writeServo c p).pkt = s.pkt := rfl
@[simp] theorem State.writeServo_pktDone (c : Chan) (p : Pos) : (s.writeServo c p).pktDone = s.pktDone := rfl
@[simp] theorem State.writeServo_servo (c : Chan) (p : Pos) : (s.writeServo c p).servo = s.servo.set c.toNat p := rfl
@[simp] theorem State.writeServo_anomOob (c : Chan) (p : Pos) : (s.writeServo c p).anomOob = s.anomOob := rfl
@[simp] theorem State.writeServo_lane (c : Chan) (p : Pos) : (s.writeServo c p).lane = s.lane := rfl
@[simp] theorem State.writeServo_stim (c : Chan) (p : Pos) : (s.writeServo c p).stim = s.stim := rfl

/-! `flagOob` -/

@[simp] theorem State.flagOob_cfg : s.flagOob.cfg = s.cfg := rfl
@[simp] theorem State.flagOob_st : s.flagOob.st = s.st := rfl
@[simp] theorem State.flagOob_cnt : s.flagOob.cnt = s.cnt := rfl
@[simp] theorem State.flagOob_gap : s.flagOob.gap = s.gap := rfl
@[simp] theorem State.flagOob_acc : s.flagOob.acc = s.acc := rfl
@[simp] theorem State.flagOob_pkt : s.flagOob.pkt = s.pkt := rfl
@[simp] theorem State.flagOob_pktDone : s.flagOob.pktDone = s.pktDone := rfl
@[simp] theorem State.flagOob_servo : s.flagOob.servo = s.servo := rfl
@[simp] theorem State.flagOob_anomOob : s.flagOob.anomOob = true := rfl
@[simp] theorem State.flagOob_lane : s.flagOob.lane = s.lane := rfl
@[simp] theorem State.flagOob_stim : s.flagOob.stim = s.stim := rfl

/-! `clear` -/

@[simp] theorem State.clear_cfg : s.clear.cfg = s.cfg := rfl
@[simp] theorem State.clear_st : s.clear.st = .prime := rfl
@[simp] theorem State.clear_cnt : s.clear.cnt = 0 := rfl
@[simp] theorem State.clear_gap : s.clear.gap = 0 := rfl
@[simp] theorem State.clear_acc : s.clear.acc = Vector.replicate 15 0 := rfl
@[simp] theorem State.clear_pkt : s.clear.pkt = Vector.replicate 16 0 := rfl
@[simp] theorem State.clear_pktDone : s.clear.pktDone = false := rfl
@[simp] theorem State.clear_servo : s.clear.servo = List.replicate s.cfg.nTable 0 := rfl
@[simp] theorem State.clear_anomOob : s.clear.anomOob = false := rfl
@[simp] theorem State.clear_lane : s.clear.lane = none := rfl
@[simp] theorem State.clear_stim : s.clear.stim = s.stim := rfl

/-! `edge` -/

@[simp] theorem State.edge_cfg : s.edge.cfg = s.cfg := rfl
@[simp] theorem State.edge_st : s.edge.st = s.st := rfl
@[simp] theorem State.edge_cnt : s.edge.cnt = s.cnt := rfl
@[simp] theorem State.edge_gap : s.edge.gap = s.gap := rfl
@[simp] theorem State.edge_acc : s.edge.acc = s.acc := rfl
@[simp] theorem State.edge_pkt : s.edge.pkt = s.pkt := rfl
@[simp] theorem State.edge_pktDone : s.edge.pktDone = s.pktDone := rfl
@[simp] theorem State.edge_servo : s.edge.servo = s.servo := rfl
@[simp] theorem State.edge_anomOob : s.edge.anomOob = s.anomOob := rfl
@[simp] theorem State.edge_lane : s.edge.lane = none := rfl
@[simp] theorem State.edge_stim : s.edge.stim = s.stim.tail := rfl

/-! `given` -/

@[simp] theorem State.given_cfg (l : List Input) : (s.given l).cfg = s.cfg := rfl
@[simp] theorem State.given_st (l : List Input) : (s.given l).st = s.st := rfl
@[simp] theorem State.given_cnt (l : List Input) : (s.given l).cnt = s.cnt := rfl
@[simp] theorem State.given_gap (l : List Input) : (s.given l).gap = s.gap := rfl
@[simp] theorem State.given_acc (l : List Input) : (s.given l).acc = s.acc := rfl
@[simp] theorem State.given_pkt (l : List Input) : (s.given l).pkt = s.pkt := rfl
@[simp] theorem State.given_pktDone (l : List Input) : (s.given l).pktDone = s.pktDone := rfl
@[simp] theorem State.given_servo (l : List Input) : (s.given l).servo = s.servo := rfl
@[simp] theorem State.given_anomOob (l : List Input) : (s.given l).anomOob = s.anomOob := rfl
@[simp] theorem State.given_lane (l : List Input) : (s.given l).lane = s.lane := rfl
@[simp] theorem State.given_stim (l : List Input) : (s.given l).stim = l := rfl

end Sys2Proof.Machine
end

