-- ==== Sys2Proof/Laws/Ops.lean ====
section
/-! SUPPORT. What each shared operation can do, said once: the demultiplexer on one lane, and the seven lanes of
DECODE7. -/

namespace Sys2Proof.Machine

/-- The bounds check in words (42_channel_decoder.md R125). -/
@[simp] theorem oob_iff (n : Nat) (c : Chan) : oob n c = true ↔ n ≤ c.toNat := by simp [oob]

/-- The wire `long` in words (40_timing_sync.md R93). -/
@[simp] theorem State.long_iff (s : State) : s.long = true ↔ s.cfg.tTicks < s.gap := by simp [State.long]

/-- The wire `last` in words (10_state.md R30). -/
@[simp] theorem State.last_iff (s : State) : s.last = true ↔ s.cnt = 15 := by simp [State.last]

/-- The demultiplexer as a choice between its two sub-operations (42_channel_decoder.md R125). -/
theorem State.demux_eq (l : Lane) (s : State) :
    s.demux l = if s.cfg.nTable ≤ l.ch.toNat then s.flagOob else s.writeServo l.ch l.pos := by
  by_cases h : s.cfg.nTable ≤ l.ch.toNat <;> simp [State.demux, h]

/-- The demultiplexer writes the table at an id inside it, flags the anomaly otherwise, and does nothing else. -/
theorem State.demux_cases (l : Lane) (s : State) :
    (l.ch.toNat < s.cfg.nTable ∧ s.demux l = s.writeServo l.ch l.pos) ∨
      (s.cfg.nTable ≤ l.ch.toNat ∧ s.demux l = s.flagOob) := by
  by_cases h : s.cfg.nTable ≤ l.ch.toNat
  · exact .inr ⟨h, by simp [State.demux, oob, h]⟩
  · exact .inl ⟨Nat.lt_of_not_le h, by simp [State.demux, oob, h]⟩

/-- What the demultiplexer makes of the table and the flag, for a table of `n` entries. -/
def demuxPair (n : Nat) (l : Lane) (r : List Pos × Bool) : List Pos × Bool :=
  if n ≤ l.ch.toNat then (r.1, true) else (r.1.set l.ch.toNat l.pos, r.2)

/-- One turn of the loop: the lane wires, the table and the flag change, nothing else. -/
theorem State.takeLane_eq (P : Vector Byte 16) (s : State) (k : Fin 7) :
    s.takeLane P k =
      { s with servo := (demuxPair s.cfg.nTable (laneOf P k) (s.servo, s.anomOob)).1
               anomOob := (demuxPair s.cfg.nTable (laneOf P k) (s.servo, s.anomOob)).2
               lane := some (laneOf P k) } := by
  by_cases h : s.cfg.nTable ≤ (laneOf P k).ch.toNat <;>
    simp [State.takeLane, State.demux, oob, demuxPair, h, State.driveLane, State.flagOob, State.writeServo]

/-- Any number of turns of the loop: the table and the flag are a fold over the lanes taken. -/
theorem State.foldl_takeLane (P : Vector Byte 16) (ks : List (Fin 7)) (s : State) :
    ks.foldl (State.takeLane P) s =
      { s with servo := (ks.foldl (fun r k => demuxPair s.cfg.nTable (laneOf P k) r) (s.servo, s.anomOob)).1
               anomOob := (ks.foldl (fun r k => demuxPair s.cfg.nTable (laneOf P k) r) (s.servo, s.anomOob)).2
               lane := (ks.foldl (fun _ k => some (laneOf P k)) s.lane) } := by
  induction ks generalizing s with
  | nil => rfl
  | cons k ks ih => simp [ih, State.takeLane_eq]

/-- DECODE7 changes the table, the flag and the lane wires, and nothing else. -/
theorem State.decodeLanes_eq (P : Vector Byte 16) (s : State) :
    s.decodeLanes P =
      { s with servo := (laneOrder.foldl (fun r k => demuxPair s.cfg.nTable (laneOf P k) r) (s.servo, s.anomOob)).1
               anomOob := (laneOrder.foldl (fun r k => demuxPair s.cfg.nTable (laneOf P k) r) (s.servo, s.anomOob)).2
               lane := some (laneOf P 6) } :=
  State.foldl_takeLane P laneOrder s

/-- COMMIT and DECODE7: the packet, the table, the flag and the lane wires change, and nothing else. -/
theorem State.takePacket_eq (s : State) :
    s.takePacket =
      { s with pkt := s.completed
               servo := (laneOrder.foldl (fun r k => demuxPair s.cfg.nTable (laneOf s.completed k) r)
                 (s.servo, s.anomOob)).1
               anomOob := (laneOrder.foldl (fun r k => demuxPair s.cfg.nTable (laneOf s.completed k) r)
                 (s.servo, s.anomOob)).2
               lane := some (laneOf s.completed 6) } :=
  State.decodeLanes_eq s.completed (s.commit s.completed)

/-- A lane keeps the number of table entries. -/
theorem demuxPair_length (n : Nat) (l : Lane) (r : List Pos × Bool) : (demuxPair n l r).1.length = r.1.length := by
  unfold demuxPair; split <;> simp

/-- Any lanes keep the number of table entries. -/
theorem foldl_demuxPair_length (n : Nat) (P : Vector Byte 16) (ks : List (Fin 7)) (r : List Pos × Bool) :
    (ks.foldl (fun r k => demuxPair n (laneOf P k) r) r).1.length = r.1.length := by
  induction ks generalizing r with
  | nil => rfl
  | cons k ks ih => simp [ih, demuxPair_length]

/-- The flag after any lanes: it was set, or one of them is out of the table. -/
theorem foldl_demuxPair_flag (n : Nat) (P : Vector Byte 16) (ks : List (Fin 7)) (r : List Pos × Bool) :
    (ks.foldl (fun r k => demuxPair n (laneOf P k) r) r).2 = true ↔
      r.2 = true ∨ ∃ k ∈ ks, n ≤ (laneOf P k).ch.toNat := by
  induction ks generalizing r with
  | nil => simp
  | cons k ks ih =>
    rw [List.foldl_cons, ih]
    by_cases h : n ≤ (laneOf P k).ch.toNat <;> simp [demuxPair, h]

end Sys2Proof.Machine
end

