-- ==== Sys2Proof/Laws/PerInstr.lean ====
section
/-! SUPPORT. Laws made per instruction: the family EncodeShape says that an instruction's code has the number of bytes of
its slot (one for a selector, two for a data word: 30_encoding.md R70, R74). -/

namespace Sys2Proof.Laws.EncodeShape

/-- The code of `i` has as many bytes as its slot's word. -/
def Statement (i : Instr) : Prop := (encode i).length = (if i.slot = .sel then 1 else 2)

theorem reset (x : BitVec 5) : Statement (.reset x) := rfl
theorem tick (x : BitVec 4) : Statement (.tick x) := rfl
theorem prime (x : BitVec 2) : Statement (.prime x) := rfl
theorem seekSkip (x : BitVec 1) : Statement (.seekSkip x) := rfl
theorem seekLock (x : BitVec 1) : Statement (.seekLock x) := rfl
theorem flushSkip (x : BitVec 1) : Statement (.flushSkip x) := rfl
theorem flushLast (x : BitVec 1) : Statement (.flushLast x) := rfl
theorem captStore (x : BitVec 1) : Statement (.captStore x) := rfl
theorem captLast (x : BitVec 1) : Statement (.captLast x) := rfl
theorem hdrSkip (h0 h1 : Byte) : Statement (.hdrSkip h0 h1) := rfl
theorem entUnpack (b0 b1 : Byte) : Statement (.entUnpack b0 b1) := rfl
theorem demuxWrite (f : BitVec 1) (c : Chan) (p : Pos) : Statement (.demuxWrite f c p) := rfl
theorem demuxDrop (f : BitVec 1) (c : Chan) (p : Pos) : Statement (.demuxDrop f c p) := rfl

end Sys2Proof.Laws.EncodeShape
end

