-- ==== Sys2Proof/Laws/Step.lean ====
section
/-! SUPPORT. What a step can do, said once: `step_eq` gives the next state of every state with a legal configuration, and
`cycle` the same with the inputs of the cycle as an argument. -/

namespace Sys2Proof.Machine

/-- The state after the operation the selector picks, before the clock edge (30_encoding.md R75). -/
def State.performed (s : State) : State :=
  if s.inp.rst then s.clear
  else if !s.inp.rxValid then { s with gap := satInc s.cfg s.gap, pktDone := false }
  else
    match s.st with
    | .prime => s.byteSeen.goto .seek s.cnt
    | .seek => if s.cfg.tTicks < s.gap then s.byteSeen.goto .flush 1 else s.byteSeen
    | .flush => if s.cnt = 15 then s.byteSeen.goto .locked 0 else s.byteSeen.goto .flush (s.cnt + 1)
    | .locked =>
      if s.cnt = 15 then { s.takePacket with pktDone := true, cnt := 0, gap := 1 }
      else s.byteSeen.storeAcc.goto .locked (s.cnt + 1)

/-- The decoder on a selector made of its six parts. -/
theorem decodeSel_parts (r v lo la : Bool) (x : St) :
    decodeSel (BitVec.ofBool r ++ BitVec.ofBool v ++ x.bits ++ BitVec.ofBool lo ++ BitVec.ofBool la) =
      .ok (if r then .reset (BitVec.ofBool v ++ x.bits ++ BitVec.ofBool lo ++ BitVec.ofBool la)
        else if !v then .tick (x.bits ++ BitVec.ofBool lo ++ BitVec.ofBool la)
        else match x with
          | .prime => .prime (BitVec.ofBool lo ++ BitVec.ofBool la)
          | .seek => if lo then .seekLock (BitVec.ofBool la) else .seekSkip (BitVec.ofBool la)
          | .flush => if la then .flushLast (BitVec.ofBool lo) else .flushSkip (BitVec.ofBool lo)
          | .locked => if la then .captLast (BitVec.ofBool lo) else .captStore (BitVec.ofBool lo)) := by
  cases r <;> cases v <;> cases x <;> cases lo <;> cases la <;> rfl

/-- The one next state of a state with a legal configuration. -/
theorem step_eq {s : State} (h : s.cfg.legal = true) : step s = .next s.performed.edge := by
  have hf : s.fetch = decodeSel s.selector := decode_selByte _ _
  rw [State.selector, decodeSel_parts] at hf
  simp only [step, State.admitted, h, if_true, hf, State.performed]
  cases hr : s.inp.rst
  · cases hv : s.inp.rxValid
    · rfl
    · cases hs : s.st
      · simp [exec, execPrime, atEdge]
      · by_cases hl : s.cfg.tTicks < s.gap <;>
          simp [State.long, hl, exec, execSeekLock, execSeekSkip, atEdge]
      · by_cases hl : s.cnt = 15#4 <;>
          simp [State.last, hl, exec, execFlushLast, execFlushSkip, atEdge, hs]
      · by_cases hl : s.cnt = 15#4 <;>
          simp [State.last, hl, exec, execCaptLast, execCaptStore, atEdge, hs]
  · rfl

/-- A state with an illegal configuration has no next state. -/
theorem step_illegal {s : State} (h : s.cfg.legal = false) : step s = .refused .illegalConfig := by
  simp [step, State.admitted, h]

/-- The inversion of a step: a next state comes from a legal configuration and is the one of `step_eq`. -/
theorem step_next {s t : State} (h : step s = .next t) : s.cfg.legal = true ∧ t = s.performed.edge := by
  cases hl : s.cfg.legal
  · rw [step_illegal hl] at h; cases h
  · rw [step_eq hl] at h
    injection h with h
    exact ⟨rfl, h.symm⟩

/-- No operation changes the parameters or consumes inputs. -/
theorem State.performed_cfg (s : State) : s.performed.cfg = s.cfg := by
  unfold State.performed
  split
  · rfl
  · split
    · rfl
    · split
      · rfl
      · split <;> rfl
      · split <;> rfl
      · split
        · simp [State.takePacket_eq]
        · rfl

theorem State.performed_stim (s : State) : s.performed.stim = s.stim := by
  unfold State.performed
  split
  · rfl
  · split
    · rfl
    · split
      · rfl
      · split <;> rfl
      · split <;> rfl
      · split
        · simp [State.takePacket_eq]
        · rfl

/-- One cycle with the inputs `i`, as a function: the next state, nothing more presented. -/
def cycle (s : State) (i : Input) : State := (s.given [i]).performed.edge

@[simp] theorem cycle_cfg (s : State) (i : Input) : (cycle s i).cfg = s.cfg := by
  simp [cycle, State.performed_cfg]

@[simp] theorem cycle_stim (s : State) (i : Input) : (cycle s i).stim = [] := by
  simp [cycle, State.performed_stim]

/-- A step looks at the head of the inputs only. -/
theorem State.performed_given (s : State) (i : Input) (l : List Input) :
    (s.given (i :: l)).performed.edge = (cycle s i).given l := by
  have hi : (s.given (i :: l)).inp = i := rfl
  have hi' : (s.given [i]).inp = i := rfl
  have ht : (s.given (i :: l)).takePacket = (s.given [i]).takePacket.given (i :: l) := by
    simp only [State.takePacket_eq]; rfl
  cases hr : i.rst
  · cases hv : i.rxValid
    · simp [cycle, State.performed, hi, hi', hr, hv]; rfl
    · cases hs : s.st
      · simp [cycle, State.performed, hi, hi', hr, hv, hs]; rfl
      · by_cases hg : s.cfg.tTicks < s.gap <;> simp [cycle, State.performed, hi, hi', hr, hv, hs, hg] <;> rfl
      · by_cases hn : s.cnt = 15#4 <;> simp [cycle, State.performed, hi, hi', hr, hv, hs, hn] <;> rfl
      · by_cases hn : s.cnt = 15#4
        · have h1 : ∀ l', (s.given l').inp = i → (s.given l').performed =
              { (s.given l').takePacket with pktDone := true, cnt := 0, gap := 1 } := by
            intro l' h; simp [State.performed, h, hr, hv, hs, hn]
          rw [cycle, h1 _ hi, h1 _ hi', ht]; rfl
        · simp [cycle, State.performed, hi, hi', hr, hv, hs, hn]; rfl
  · simp [cycle, State.performed, hi, hi', hr]; rfl

/-- The runs from a legal configuration are the folds of `cycle`. -/
theorem after_iff {s t : State} (h : s.cfg.legal = true) (l : List Input) :
    After l s t ↔ t = (l.foldl cycle (s.given [])) := by
  suffices H : ∀ s : State, s.cfg.legal = true →
      runFor l.length (s.given l) = .next (l.foldl cycle (s.given [])) by
    rw [After, Runs, H s h]
    exact ⟨fun e => (Host.Outcome.next.inj e).symm, fun e => e ▸ rfl⟩
  induction l with
  | nil => intro s _; rfl
  | cons i l ih =>
    intro s hs
    have h1 : step (s.given (i :: l)) = .next ((cycle s i).given l) := by
      rw [step_eq (by simpa using hs), State.performed_given]
    have h2 : (cycle s i).given [] = cycle s i := by
      rw [State.given, ← cycle_stim s i]
    rw [List.length_cons, runFor, h1]
    exact (ih (cycle s i) (by simpa using hs)).trans (by rw [h2]; rfl)

end Sys2Proof.Machine
end

