-- ==== Sys2Proof/Laws/Runs.lean ====
section
/-! SUPPORT. The packets of a run, cycle by cycle: what later proofs cite instead of unfolding `packetsFor`. -/

namespace Sys2Proof.Machine

/-- The states after each of the cycles with the inputs of a list. -/
def cyclesFrom : State → List Input → List State
  | _, [] => []
  | s, i :: l => cycle s i :: cyclesFrom (cycle s i) l

@[simp] theorem cyclesFrom_length (s : State) (l : List Input) : (cyclesFrom s l).length = l.length := by
  induction l generalizing s with
  | nil => rfl
  | cons i l ih => simp [cyclesFrom, ih]

theorem cyclesFrom_append (s : State) (l m : List Input) :
    cyclesFrom s (l ++ m) = cyclesFrom s l ++ cyclesFrom (l.foldl cycle s) m := by
  induction l generalizing s with
  | nil => rfl
  | cons i l ih => simp [cyclesFrom, ih]

/-- The packets of a list of inputs are those the states after its cycles show. -/
theorem packetsFor_given {s : State} (h : s.cfg.legal = true) (l : List Input) :
    packetsFor l.length (s.given l) = (cyclesFrom (s.given []) l).flatMap State.pulse := by
  induction l generalizing s with
  | nil => rfl
  | cons i l ih =>
    have h1 : step (s.given (i :: l)) = .next ((cycle s i).given l) := by
      rw [step_eq (by simpa using h), State.performed_given]
    have h2 : (cycle s i).given [] = cycle s i := by rw [State.given, ← cycle_stim s i]
    rw [List.length_cons, packetsFor, h1]
    refine (congrArg _ (ih (s := cycle s i) (by simpa using h))).trans ?_
    rw [h2]; rfl

end Sys2Proof.Machine
end

