-- ==== Sys2Proof/Tests/Slice0.lean ====
section
/-! SUPPORT. The model's own tests: the well-formedness smoke, words written out from the spec, single steps against the
spec's vectors (95_test_vectors.md, named in each docstring), and a witness for every statement with hypotheses. -/

open Sys2Proof Sys2Proof.Machine

namespace Sys2Proof.Tests

/-! ## Helpers -/

/-- The example configuration with a table of `n` entries (95_test_vectors.md section 0). -/
def cfg (n : Nat) : Config := { tTicks := 5000, gapW := 13, nTable := n }

/-- The tiny configuration of V2.6. -/
def tiny : Config := { tTicks := 3, gapW := 3, nTable := 18 }

/-- A state with the given control part, the rest as after reset. -/
def ctl (c : Config) (x : St) (n : BitVec 4) (g : Nat) : State :=
  { State.resetWith c [] with st := x, cnt := n, gap := g }

/-- The state presented with the byte `d`. -/
def rx (d : Byte) (s : State) : State := s.given [stRx d]

/-- The state presented with nothing. -/
def idle (s : State) : State := s.given [{ rst := false, rxValid := false, rxData := 0 }]

/-- The state presented with a reset and the byte `d`. -/
def rstWith (d : Byte) (s : State) : State := s.given [{ rst := true, rxValid := true, rxData := d }]

/-- `S_LOCKED` with fifteen bytes of a packet in `acc` and its last byte presented. -/
def full (c : Config) (a : Vector Byte 15) (d : Byte) : State :=
  rx d { ctl c .locked 15 87 with acc := a }

/-- An outcome is a next state that passes a check. -/
def nextIs (o : Host.Outcome State Fault Refusal) (p : State → Bool) : Bool :=
  match o with
  | .next t => p t
  | .fault _ => false
  | .refused _ => false

/-- A state's `st`, `cnt`, `gap`, `pkt_done`. -/
def ctlIs (x : St) (n : BitVec 4) (g : Nat) (d : Bool) (t : State) : Bool :=
  t.st == x && t.cnt == n && t.gap == g && t.pktDone == d

/-- The first fifteen bytes of the packet of V1.4a. -/
def accA : Vector Byte 15 :=
  #v[0x03, 0xB2, 0x00, 0x64, 0x08, 0x32, 0x10, 0x96, 0x18, 0x00, 0x20, 0xFF, 0x28, 0x01, 0x30]

/-- The first fifteen bytes of the packet of V1.4b. -/
def accB : Vector Byte 15 :=
  #v[0x03, 0xB2, 0x00, 0x64, 0x08, 0x32, 0x10, 0x96, 0x18, 0x00, 0x20, 0xFF, 0x29, 0x01, 0x30]

/-- The packet of V1.4b with another header and its flag bits flipped. -/
def accBf : Vector Byte 15 :=
  #v[0xFF, 0x00, 0x80, 0x64, 0x88, 0x32, 0x90, 0x96, 0x98, 0x00, 0xA0, 0xFF, 0xA9, 0x01, 0xB0]

/-- The first fifteen bytes of the packet of V2.12. -/
def accR : Vector Byte 15 :=
  #v[0x00, 0x00, 0x18, 0x0A, 0x18, 0x14, 0x98, 0x1E, 0x48, 0x01, 0x18, 0x28, 0x48, 0x02, 0x07]

/-- The first fifteen bytes of packet X of program P4. -/
def accX : Vector Byte 15 :=
  #v[0x00, 0x00, 0x00, 0x0A, 0x28, 0x14, 0x30, 0x1E, 0x78, 0x28, 0xB0, 0x32, 0x08, 0x3C, 0x28]

/-! ## Well-formedness smoke -/

/-- 30_encoding.md R77: a WRITE to the first id outside the table is ill formed. -/
theorem test_wf_write_refused : (Instr.demuxWrite 0 6 0).wf 6 = false := by decide

/-- 30_encoding.md R77: a DROP of the last id inside the table is ill formed. -/
theorem test_wf_drop_refused : (Instr.demuxDrop 0 5 0).wf 6 = false := by decide

/-! ## Decoding: words written out from the spec -/

/-- R75, V2.15: the least and greatest word of RESET. -/
theorem test_decode_reset : decode 18 .sel [0b00100000] = .ok (.reset 0b00000) ∧
    decode 18 .sel [0b00111111] = .ok (.reset 0b11111) := by decide

/-- R75, V2.15. -/
theorem test_decode_tick : decode 18 .sel [0b00000000] = .ok (.tick 0b0000) ∧
    decode 18 .sel [0b00001111] = .ok (.tick 0b1111) := by decide

/-- R75, V2.15. -/
theorem test_decode_prime : decode 18 .sel [0b00010000] = .ok (.prime 0b00) ∧
    decode 18 .sel [0b00010011] = .ok (.prime 0b11) := by decide

/-- R75, V2.15. -/
theorem test_decode_seek : decode 18 .sel [0b00010100] = .ok (.seekSkip 0) ∧
    decode 18 .sel [0b00010111] = .ok (.seekLock 1) := by decide

/-- R75, V2.15. -/
theorem test_decode_flush : decode 18 .sel [0b00011000] = .ok (.flushSkip 0) ∧
    decode 18 .sel [0b00011001] = .ok (.flushLast 0) := by decide

/-- R75, V2.15. -/
theorem test_decode_capt : decode 18 .sel [0b00011100] = .ok (.captStore 0) ∧
    decode 18 .sel [0b00011111] = .ok (.captLast 1) := by decide

/-- R72, R77: the document's header. -/
theorem test_decode_hdr : decode 18 .hdr [0x03, 0xB2] = .ok (.hdrSkip 0x03 0xB2) := by decide

/-- R73, R77, V2.8: the entry `A9 01`. -/
theorem test_decode_ent : decode 18 .ent [0b10101001, 0b00000001] = .ok (.entUnpack 0xA9 0x01) := by decide

/-- R73, R77, V2.10: the lane `78 28` on the two sides of the bounds check; `7F FF` keeps every bit. -/
theorem test_decode_demux : decode 16 .demux [0x78, 0x28] = .ok (.demuxWrite 0 15 40) ∧
    decode 15 .demux [0x78, 0x28] = .ok (.demuxDrop 0 15 40) ∧
    decode 18 .demux [0x7F, 0xFF] = .ok (.demuxWrite 0 15 2047) := by decide

/-- R74: a selector has 6 bits and one byte holds it. -/
theorem test_decode_rejects : decode 18 .sel [0b01000000] = .error .selectorTooWide ∧
    decode 18 .sel [] = .error .wrongLength ∧ decode 18 .ent [0x29] = .error .wrongLength := by decide

/-! ## One step each (V2.1, V2.7, V2.14) -/

/-- V2.14: a populated state, `RST` with a byte presented. -/
theorem test_reset : nextIs (step (rstWith 0x77 { full (cfg 6) accX 0x15 with servo := [12, 61, 1, 2, 3, 4], anomOob := true }))
    (fun t => ctlIs .prime 0 0 false t && t.servo == [0, 0, 0, 0, 0, 0] && !t.anomOob && t.acc == Vector.replicate 15 0) = true := by
  decide

/-- V2.1: 8190 to 8191, and no wrap. -/
theorem test_tick_saturates : nextIs (step (idle (ctl (cfg 18) .seek 0 8190))) (ctlIs .seek 0 8191 false) = true ∧
    nextIs (step (idle (ctl (cfg 18) .seek 0 8191))) (ctlIs .seek 0 8191 false) = true := by decide

/-- V2.1: `pkt_done` falls in the cycle after a CAPT.LAST. -/
theorem test_tick_pulse : nextIs (step (idle { ctl (cfg 18) .locked 0 1 with pktDone := true })) (ctlIs .locked 0 2 false) = true := by
  decide

/-- V2.7 rows 2 and 19. -/
theorem test_prime : nextIs (step (rx 0x5A (ctl (cfg 18) .prime 0 8191))) (ctlIs .seek 0 1 false) = true ∧
    nextIs (step (rx 0x5A (ctl (cfg 18) .prime 7 87))) (ctlIs .seek 7 1 false) = true := by decide

/-- V2.7 row 4: a gap of exactly `T_TICKS` is short. -/
theorem test_seek_skip : nextIs (step (rx 0x5A (ctl (cfg 18) .seek 0 5000))) (ctlIs .seek 0 1 false) = true := by decide

/-- V2.7 rows 5 and 20. -/
theorem test_seek_lock : nextIs (step (rx 0x5A (ctl (cfg 18) .seek 0 5001))) (ctlIs .flush 1 1 false) = true ∧
    nextIs (step (rx 0x5A (ctl (cfg 18) .seek 15 5001))) (ctlIs .flush 1 1 false) = true := by decide

/-- V2.7 rows 7 and 8. -/
theorem test_flush_skip : nextIs (step (rx 0x5A (ctl (cfg 18) .flush 14 87))) (ctlIs .flush 15 1 false) = true ∧
    nextIs (step (rx 0x5A (ctl (cfg 18) .flush 7 8191))) (ctlIs .flush 8 1 false) = true := by decide

/-- V2.7 row 10. -/
theorem test_flush_last : nextIs (step (rx 0x5A (ctl (cfg 18) .flush 15 8191))) (ctlIs .locked 0 1 false) = true := by decide

/-- V2.7 rows 11 and 13. -/
theorem test_capt_store : nextIs (step (rx 0x5A (ctl (cfg 18) .locked 0 8191)))
      (fun t => ctlIs .locked 1 1 false t && t.acc == (Vector.replicate 15 0).set 0 0x5A) = true ∧
    nextIs (step (rx 0x5A (ctl (cfg 18) .locked 14 87)))
      (fun t => ctlIs .locked 15 1 false t && t.acc == (Vector.replicate 15 0).set 14 0x5A) = true := by decide

/-- V1.4a and V1.4b: the table after the document's packet as printed, and after the one it means. -/
theorem test_capt_last_table : nextIs (step (full (cfg 18) accA 0x7F))
      (fun t => ctlIs .locked 0 1 true t && t.servo == [100, 50, 150, 0, 255, 1, 127] ++ List.replicate 11 0) = true ∧
    nextIs (step (full (cfg 18) accB 0x7F))
      (fun t => t.servo == [100, 50, 150, 0, 255, 257, 127] ++ List.replicate 11 0 && !t.anomOob) = true := by decide

/-- P4, packet X: three lanes dropped and flagged, `servo` and `ent_oob` as listed. -/
theorem test_capt_last_drops : nextIs (step (full (cfg 6) accX 0x15))
      (fun t => t.servo == [10, 60, 0, 0, 0, 21] && t.anomOob &&
        (outputs t).entOob == #v[false, false, true, true, true, false, false] && t.pkt == accX.push 0x15) = true := by decide

/-- V2.12: the last lane wins. -/
theorem test_last_lane_wins : nextIs (step (full (cfg 18) accR 0xFF))
      (fun t => t.servo == [2047, 0, 0, 40, 0, 0, 0, 0, 0, 2] ++ List.replicate 8 0) = true := by decide

/-- R123: the header changes nothing. -/
theorem test_hdr_skip : nextIs (exec (.hdrSkip 0xAA 0x55) (ctl (cfg 6) .locked 15 87)) (fun t => t == ctl (cfg 6) .locked 15 87) = true := by
  decide

/-- V2.8: alternating bits, and no carry of `p` into `c`. -/
theorem test_ent_unpack : nextIs (exec (.entUnpack 0xAA 0x55) (ctl (cfg 6) .locked 15 87)) (fun t => t.lane == some ⟨5, 597⟩) = true ∧
    nextIs (exec (.entUnpack 0x07 0xFF) (ctl (cfg 6) .locked 15 87)) (fun t => t.lane == some ⟨0, 2047⟩) = true := by decide

/-- V2.10, `N_TABLE` = 16. -/
theorem test_demux_write : nextIs (exec (.demuxWrite 0 15 40) (ctl (cfg 16) .locked 15 87))
    (fun t => t.servo == List.replicate 15 0 ++ [40] && !t.anomOob) = true := by decide

/-- V2.10, `N_TABLE` = 15. -/
theorem test_demux_drop : nextIs (exec (.demuxDrop 0 15 40) (ctl (cfg 15) .locked 15 87))
    (fun t => t.servo == List.replicate 15 0 && t.anomOob) = true := by decide

/-- 93_implementation_defined.md S3: `GAP_MAX` not above `T_TICKS`. -/
theorem test_illegal_refused : step (ctl { cfg 18 with gapW := 12 } .seek 0 0) = .refused .illegalConfig := by rfl

/-- 40_timing_sync.md R95: the example of 1 MHz and 5 ms, then 50 MHz and 16 MHz. -/
theorem test_ticks : ticksOf 5 1000 1000000 = 5000 ∧ ticksOf 5 1000 50000000 = 250000 ∧ ticksOf 5 1000 16000000 = 80000 := by
  decide

/-- 30_encoding.md R75: a selector put in place after reset is the operation the next step performs. -/
theorem test_with_fetch_word : nextIs (step (State.reset.withFetchWord 8 0x16)) (ctlIs .flush 1 1 false) = true ∧
    nextIs (step (State.reset.withFetchWord 8 0x1D)) (ctlIs .locked 0 1 true) = true ∧
    nextIs (step (State.reset.withFetchWord 16 0x2901)) (fun t => t.servo.getD 5 0 == 257) = true := by decide

/-- 10_state.md R35: the two packed ports, byte 0 and entry 0 lowest. -/
theorem test_packed_ports : pktO (accA.push 0x7F) = 0x7F300128FF200018961032086400B203#128 ∧ servoO 2 [1, 2047] = 0x3FF801#22 := by
  decide

/-- 70_reset_and_hazards.md R164, V1.8: the threshold of the example separates 87 from 9698 ticks, and 9 from 9890. -/
theorem test_separates : Separates Config.ofExample 87 9698 ∧ Separates Config.ofExample 9 9890 := by
  unfold Separates; decide


/-- 00_scope.md R18, 41_frame_aligner.md R107: the cycle of a packet's last byte shows that packet; one of reset none. -/
theorem test_packets_observed : packetsFor 1 (full (cfg 18) accA 0x7F) = [accA.push 0x7F] ∧
    packetsFor 1 (rstWith 0x7F (full (cfg 18) accA 0x7F)) = [] := by decide

/-- The model refuses a run that does not begin with a reset, one of the two treatments of 10_state.md R38 (log 8). -/
theorem test_no_run_without_reset : runResult [stRx 0x7F] (full (cfg 18) accA 0x7F) = none := by decide

/-! ## Witnesses: each statement with hypotheses, at the boundaries of its clauses -/

/-- The step of a state exists: what the witnesses of statements about a next state need. -/
def stepped (s : State) : State :=
  match step s with
  | .next t => t
  | .fault _ => s
  | .refused _ => s

/-- The state after a list of inputs, as a value. -/
def ranTo (l : List Input) (s : State) : State :=
  match runFor l.length (s.given l) with
  | .next t => t
  | .fault _ => s
  | .refused _ => s

/-- A byte list with one gap. -/
def evenly (g n : Nat) : List (Nat × Byte) := List.replicate n (g, 0x29)

/-- A byte is presented, in the given aligner state. -/
def byteIn (s : State) (x : St) : Prop := s.inp.rst = false ∧ s.inp.rxValid = true ∧ s.st = x

theorem witness_ResetClearsEveryElement : (rstWith 0x77 (full (cfg 6) accX 0x15)).inp.rst = true := by decide

theorem witness_TickCountsUpAndSaturates : (idle (ctl tiny .locked 15 7)).inp.rst = false ∧
    (idle (ctl tiny .locked 15 7)).inp.rxValid = false := by decide

theorem witness_PrimeDiscardsTheByte : byteIn (rx 0x5A (ctl tiny .prime 0 7)) .prime := by unfold byteIn; decide

/-- A gap of exactly `T_TICKS`. -/
theorem witness_SeekSkipStays : byteIn (rx 0x5A (ctl tiny .seek 0 3)) .seek ∧ (ctl tiny .seek 0 3).gap ≤ tiny.tTicks := by
  unfold byteIn; decide

/-- A gap of `T_TICKS + 1`. -/
theorem witness_SeekLockStartsTheFlush : byteIn (rx 0x5A (ctl tiny .seek 0 4)) .seek ∧ tiny.tTicks < (ctl tiny .seek 0 4).gap := by
  unfold byteIn; decide

theorem witness_FlushSkipCounts : byteIn (rx 0x5A (ctl tiny .flush 0 1)) .flush ∧ (ctl tiny .flush 0 1).cnt ≠ 15 ∧
    byteIn (rx 0x5A (ctl tiny .flush 14 1)) .flush ∧ (ctl tiny .flush 14 1).cnt ≠ 15 := by unfold byteIn; decide

theorem witness_FlushLastEstablishesAlignment : byteIn (rx 0x5A (ctl tiny .flush 15 1)) .flush ∧ (ctl tiny .flush 15 1).cnt = 15 := by
  unfold byteIn; decide

theorem witness_CaptStoreWritesOneByte : byteIn (rx 0x5A (ctl tiny .locked 0 1)) .locked ∧ (ctl tiny .locked 0 1).cnt ≠ 15 ∧
    byteIn (rx 0x5A (ctl tiny .locked 14 1)) .locked ∧ (ctl tiny .locked 14 1).cnt ≠ 15 := by unfold byteIn; decide

theorem witness_CaptLastCommitsAndDecodes : byteIn (full (cfg 6) accX 0x15) .locked ∧ (full (cfg 6) accX 0x15).cnt = 15 := by
  unfold byteIn; decide

/-- Two packets that differ in both header bytes and nowhere else. -/
theorem witness_HdrSkipDoesNothing :
    ∀ i : Fin 16, 2 ≤ i.val → ((accX.push 0x15).set 0 0xFF |>.set 1 0xAA)[i.val] = (accX.push 0x15)[i.val] := by decide

theorem witness_DemuxWriteOverwritesOneEntry :
    ((ctl (cfg 1) .locked 15 1).servo.length = 1 ∧ (0 : Chan).toNat < (cfg 1).nTable) ∧
    ((ctl (cfg 16) .locked 15 1).servo.length = 16 ∧ (15 : Chan).toNat < (cfg 16).nTable) := by decide

theorem witness_DemuxDropFlagsAndDiscards : ((cfg 1).nTable ≤ (1 : Chan).toNat ∧ (cfg 15).nTable ≤ (15 : Chan).toNat) ∧
    6 ≤ ((outputs { ctl (cfg 6) .locked 0 1 with pkt := accX.push 0x15 }).entCh[2]).toNat := by decide

/-- Each of the nine cases of the operation map, at its edge. -/
theorem witness_OperationMapSelects :
    (rstWith 0 (ctl tiny .locked 15 7)).selector = 0x3F ∧ (idle (ctl tiny .locked 15 7)).selector = 0x0F ∧
    (rx 0 (ctl tiny .prime 15 7)).selector = 0x13 ∧ (rx 0 (ctl tiny .seek 0 3)).selector = 0x14 ∧
    (rx 0 (ctl tiny .seek 0 4)).selector = 0x16 ∧ (rx 0 (ctl tiny .flush 14 1)).selector = 0x18 ∧
    (rx 0 (ctl tiny .flush 15 1)).selector = 0x19 ∧ (rx 0 (ctl tiny .locked 14 4)).selector = 0x1E ∧
    (rx 0 (ctl tiny .locked 15 3)).selector = 0x1D := by decide

theorem witness_StepRunsTheDecodedOperation :
    (rx 0 (ctl tiny .seek 0 4)).cfg.legal = true ∧
    Picks (rx 0 (ctl tiny .seek 0 4)) (.seekLock 0) := by unfold Picks; decide

/-- Both sides, `GAP_MAX = T_TICKS + 1` and `GAP_MAX = T_TICKS`, `N_TABLE` 1 and 0. -/
theorem witness_StepIsTotal :
    ((6 < 2 ^ 3 - 1 ∧ 1 ≤ 1) ∧ ¬ (7 < 2 ^ 3 - 1 ∧ 1 ≤ 1) ∧ ¬ (6 < 2 ^ 3 - 1 ∧ 1 ≤ 0)) ∧
    (ctl { tTicks := 6, gapW := 3, nTable := 1 } .seek 0 0).cfg.legal = true := by decide

theorem witness_DecodeOfEncode : (Instr.demuxWrite 1 5 2047).wf 6 = true ∧ (Instr.demuxDrop 1 6 0).wf 6 = true ∧
    (Instr.captLast 1).wf 0 = true := by decide

theorem witness_EncodeOfDecode : decode 6 .demux [0xB0, 0x32] = .ok (.demuxDrop 1 6 50) ∧
    decode 6 .sel [0x1D] = .ok (.captLast 0) := by decide

/-- V2.12: lane 4 is the last that names entry 3, no lane names entry 1; and a packet with lanes outside the table. -/
theorem witness_LastLaneWins :
    (full (cfg 18) accR 0xFF).servo.length = 18 ∧
    exec (.captLast 0) (full (cfg 18) accR 0xFF) = .next { (full (cfg 18) accR 0xFF).takePacket with pktDone := true, cnt := 0, gap := 1 } ∧
    (laneOf (accR.push 0xFF) 4).ch.toNat = 3 ∧
    (∀ j : Fin 7, 4 < j → (laneOf (accR.push 0xFF) j).ch.toNat ≠ 3) ∧
    (∀ k : Fin 7, (laneOf (accR.push 0xFF) k).ch.toNat ≠ 1) ∧
    (∃ k : Fin 7, 6 ≤ (laneOf (accX.push 0x15) k).ch.toNat) := by
  refine ⟨by decide, rfl, by decide, by decide, by decide, by decide⟩

theorem witness_IgnoredBitsHaveNoEffect :
    (full (cfg 18) accB 0x7F).servo = (full (cfg 18) accBf 0x7F).servo ∧ accB ≠ accBf ∧
    (∀ k : Fin 7, (laneB0 (full (cfg 18) accB 0x7F).completed k) ||| 0x80 = (laneB0 (full (cfg 18) accBf 0x7F).completed k) ||| 0x80 ∧
      laneB1 (full (cfg 18) accB 0x7F).completed k = laneB1 (full (cfg 18) accBf 0x7F).completed k) ∧
    (∃ t, exec (.captLast 0) (full (cfg 18) accB 0x7F) = .next t) ∧ (∃ t, exec (.captLast 0) (full (cfg 18) accBf 0x7F) = .next t) :=
  ⟨rfl, by decide, by decide, ⟨_, rfl⟩, ⟨_, rfl⟩⟩

/-- Two states whose packets differ in bit 7 of lane 6. -/
theorem witness_FlagBitIsIgnored :
    ({ ctl tiny .locked 0 1 with pkt := (accX.push 0x15).set 14 0xA8 } : State).pkt[14] =
      ({ ctl tiny .locked 0 1 with pkt := accX.push 0x15 } : State).pkt[14] ^^^ 0x80 := by decide

theorem witness_ResetStateAndPorts : 1 ≤ (cfg 1).nTable := by decide

theorem witness_DataPortsShowPacketAndTable : (full (cfg 1) accB 0x7F).servo.length = (full (cfg 1) accB 0x7F).cfg.nTable := by decide

/-- `aligned` rises at the last flushed byte. -/
theorem witness_StatusPortsShowTheAligner : ∃ t, step (rx 0x5A (ctl tiny .flush 15 1)) = .next t ∧
    (outputs (rx 0x5A (ctl tiny .flush 15 1))).aligned = false ∧ (outputs t).aligned = true :=
  ⟨stepped (rx 0x5A (ctl tiny .flush 15 1)), rfl, by decide, by decide⟩

theorem witness_OutputsFollowTheStateOnly : (∃ t, step (full (cfg 6) accX 0x15) = .next t) ∧
    byteIn (full (cfg 6) accX 0x15) .locked ∧ (full (cfg 6) accX 0x15).cnt = 15 :=
  ⟨⟨stepped (full (cfg 6) accX 0x15), rfl⟩, by unfold byteIn; decide, by decide⟩

theorem witness_ResetOverridesInputs : (rstWith 0x77 (full (cfg 6) accX 0x15)).cfg.legal = true ∧
    (rstWith 0x77 (full (cfg 6) accX 0x15)).inp.rst = true := by decide

/-- One input for each of the three ways not to read `rx_data`. -/
theorem witness_DataIsReadOnlyWhenValid :
    (rstWith 0x77 (ctl tiny .locked 15 1)).inp.rst = true ∧ (idle (ctl tiny .locked 15 1)).inp.rxValid = false ∧
    (rx 0x77 (ctl tiny .flush 15 1)).st ≠ .locked := by decide

/-- Every cell of the table has a state in it, reset among them. -/
theorem witness_TransitionTable :
    tiny.legal = true ∧ (rstWith 0 (ctl tiny .locked 15 1)).inp.rst = true ∧
    (∀ x ∈ [St.prime, .seek, .flush, .locked], ∀ n ∈ [(0 : BitVec 4), 14, 15], ∀ g ∈ [3, 4],
      (rx 0 (ctl tiny x n g)).inp.rst = false ∧ (rx 0 (ctl tiny x n g)).inp.rxValid = true ∧
      (idle (ctl tiny x n g)).inp.rst = false ∧ (idle (ctl tiny x n g)).inp.rxValid = false) := by decide

/-- A change of each element. -/
theorem witness_AccessMatrixWrites :
    (∃ t, step (rx 0x5A (ctl tiny .flush 15 1)) = .next t ∧ t.st ≠ .flush ∧ t.cnt ≠ 15) ∧
    (∃ t, step (rx 0x5A (ctl tiny .locked 14 1)) = .next t ∧ t.acc ≠ (ctl tiny .locked 14 1).acc) ∧
    (∃ t, step (full (cfg 6) accX 0x15) = .next t ∧ t.pkt ≠ (full (cfg 6) accX 0x15).pkt ∧
      t.servo ≠ (full (cfg 6) accX 0x15).servo ∧ t.anomOob ≠ (full (cfg 6) accX 0x15).anomOob ∧ t.pktDone = true) := by
  refine ⟨⟨stepped (rx 0x5A (ctl tiny .flush 15 1)), rfl, by decide, by decide⟩,
    ⟨stepped (rx 0x5A (ctl tiny .locked 14 1)), rfl, by decide⟩,
    ⟨stepped (full (cfg 6) accX 0x15), rfl, by decide, by decide, by decide, by decide⟩⟩

/-- At and below `GAP_MAX`, with a byte, and in reset. -/
theorem witness_GapTimerRule : tiny.legal = true ∧ (idle (ctl tiny .seek 0 7)).gap = 2 ^ tiny.gapW - 1 ∧
    (idle (ctl tiny .seek 0 7)).gap < 2 ^ tiny.gapW ∧ (rstWith 0 (ctl tiny .seek 0 7)).inp.rst = true ∧
    (idle (ctl tiny .seek 0 7)).inp.rst = false ∧ (rx 0 (ctl tiny .seek 0 6)).inp.rxValid = true := by decide

theorem witness_PktDoneIsThePulseOfCaptLast :
    (∃ t, step (full (cfg 6) accX 0x15) = .next t ∧ t.pktDone = true) ∧
    (∃ t, step (rx 0 (ctl tiny .locked 14 1)) = .next t ∧ t.pktDone = false) :=
  ⟨⟨stepped (full (cfg 6) accX 0x15), rfl, by decide⟩, ⟨stepped (rx 0 (ctl tiny .locked 14 1)), rfl, by decide⟩⟩

theorem witness_AnomalyFlagRule :
    (∃ t, step (full (cfg 6) accX 0x15) = .next t ∧ t.anomOob = true) ∧
    (∃ t, step (full (cfg 18) accX 0x15) = .next t ∧ t.anomOob = false) :=
  ⟨⟨stepped (full (cfg 6) accX 0x15), rfl, by decide⟩, ⟨stepped (full (cfg 18) accX 0x15), rfl, by decide⟩⟩

theorem witness_GapFoundChangesOnlyAtTheLock :
    (∃ t, step (rx 0 (ctl tiny .seek 0 4)) = .next t ∧ (ctl tiny .seek 0 4).st.gapFound = false ∧ t.st.gapFound = true) ∧
    (∃ t, step (rstWith 0 (ctl tiny .flush 1 1)) = .next t ∧ (ctl tiny .flush 1 1).st.gapFound = true ∧ t.st.gapFound = false) :=
  ⟨⟨stepped (rx 0 (ctl tiny .seek 0 4)), rfl, by decide, by decide⟩,
    ⟨stepped (rstWith 0 (ctl tiny .flush 1 1)), rfl, by decide, by decide⟩⟩

/-- A state that is not the reset state, with a last packet byte presented. -/
theorem witness_EveryStepKeepsTheInvariants :
    (full (cfg 6) accX 0x15).Inv ∧ ∃ t, step (full (cfg 6) accX 0x15) = .next t := by
  refine ⟨?_, ⟨stepped (full (cfg 6) accX 0x15), rfl⟩⟩
  refine ⟨by decide, by decide, by decide, by decide, by decide, by decide, fun h => absurd h (by decide), by decide, ?_,
    fun h => absurd rfl h, by decide, by decide⟩
  intro i hi
  exact List.getD_eq_default _ _ (by show 6 ≤ i; omega)

theorem witness_ResetStateHasTheInvariants : Config.legal { tTicks := 6, gapW := 3, nTable := 1 } = true := by decide

theorem witness_AlignerNeverGoesBack : (∃ t, step (rx 0x11 (ctl tiny .locked 15 1)) = .next t ∧ t.st = .locked) ∧
    NoReset [stRx 0x11] ∧ After [stRx 0x11] (ctl tiny .prime 0 0) (ranTo [stRx 0x11] (ctl tiny .prime 0 0)) :=
  ⟨⟨stepped (rx 0x11 (ctl tiny .locked 15 1)), rfl, by decide⟩, by unfold NoReset; decide, rfl⟩

theorem witness_AnomalyIsSticky : (∃ t, step (rstWith 0x11 (full (cfg 6) accX 0x15)) = .next t) ∧ NoReset [stRx 0x11] ∧
    After [stRx 0x11] { ctl tiny .locked 0 1 with anomOob := true } (ranTo [stRx 0x11] { ctl tiny .locked 0 1 with anomOob := true }) ∧
    ({ ctl tiny .locked 0 1 with anomOob := true } : State).anomOob = true :=
  ⟨⟨stepped (rstWith 0x11 (full (cfg 6) accX 0x15)), rfl⟩, by unfold NoReset; decide, rfl, rfl⟩

theorem witness_GapIsTheCyclesSinceTheLastByte : tiny.legal = true ∧ (∀ i ∈ silence 9, i.rst = false ∧ i.rxValid = false) := by
  decide

theorem witness_EventLevelAgrees : (ctl tiny .seek 0 7).cfg.legal = true ∧ (ctl tiny .seek 0 7).gap ≤ tiny.gapMax ∧
    NoReset (bytesAfter [(1, 0x11), (4, 0x22)]) := ⟨by decide, by decide, by unfold NoReset; decide⟩

theorem witness_DataNeverAltersControl :
    (ctl tiny .locked 0 1).cfg = (full tiny accX 0x15).cfg ∧
    [stRx 0x11].map (fun i => (i.rst, i.rxValid)) = [stRx 0xEE].map (fun i => (i.rst, i.rxValid)) ∧
    (ctl tiny .locked 15 87).cnt = (full tiny accX 0x15).cnt ∧
    After [stRx 0x11] (ctl tiny .locked 15 87) (ranTo [stRx 0x11] (ctl tiny .locked 15 87)) ∧
    After [stRx 0xEE] (full tiny accX 0x15) (ranTo [stRx 0xEE] (full tiny accX 0x15)) :=
  ⟨rfl, rfl, rfl, rfl, rfl⟩

theorem witness_GapsAreIgnoredAfterTheLock : tiny.legal = true ∧ (ctl tiny .flush 1 1).st = .flush ∧
    Ticked (evenly 1 20) ∧ Ticked (evenly 9 20) ∧ bytesOf (evenly 1 20) = bytesOf (evenly 9 20) := by
  unfold Ticked; decide

theorem witness_ForwardingFidelity : tiny.legal = true ∧ (ctl tiny .locked 0 1).st = .locked ∧ (ctl tiny .locked 0 1).cnt = 0 ∧
    Ticked (evenly 2 16) ∧ (evenly 2 16).length = 16 := by
  unfold Ticked; decide

theorem witness_SamePacketTwiceIsOnce : Ticked (evenly 2 16) ∧ Ticked (evenly 9 16) ∧ (evenly 2 16).length = 16 ∧
    bytesOf (evenly 2 16) = bytesOf (evenly 9 16) := by
  unfold Ticked; decide

/-- Gaps of 1 and of exactly `T_TICKS`. -/
theorem witness_NeverConvergingIsNotSignalled : tiny.legal = true ∧ ShortGaps tiny [(1, 0x11), (3, 0x22)] := by
  unfold ShortGaps; decide

theorem witness_AlignmentDiscardsTheLockingPacket : ShortGaps tiny (evenly 3 2) ∧ tiny.tTicks < 4 ∧ Ticked (evenly 9 15) ∧
    (evenly 9 15).length = 15 := by
  unfold ShortGaps Ticked; decide

theorem witness_ByteAccountingFromReset : ShortGaps tiny (evenly 3 2) ∧ Ticked (evenly 9 15) ∧ Ticked (evenly 1 32) ∧
    (evenly 1 32).length % 16 = 0 ∧ Ticked (evenly 7 16) ∧ (evenly 7 16).length = 16 := by
  unfold ShortGaps Ticked; decide

theorem witness_AlignmentCorrectness : ShortGaps tiny (evenly 3 15) ∧ (evenly 3 15).length ≤ 15 ∧
    GoodPacket tiny ((4, 0x03) :: evenly 3 15) :=
  ⟨by unfold ShortGaps; decide, by decide, rfl, 4, 0x03, evenly 3 15, rfl, by decide, by unfold ShortGaps; decide⟩

/-- A byte cycle and a silent one. -/
theorem witness_EventLevelOfOneCycle :
    (∃ t, step (full (cfg 6) accX 0x15) = .next t ∧ t.ev ≠ (full (cfg 6) accX 0x15).ev) ∧
    (full (cfg 6) accX 0x15).inp.rst = false ∧ (full (cfg 6) accX 0x15).inp.rxValid = true ∧
    (∃ t, step (idle (ctl tiny .seek 0 7)) = .next t) ∧ (idle (ctl tiny .seek 0 7)).inp.rst = false ∧
    (idle (ctl tiny .seek 0 7)).inp.rxValid = false :=
  ⟨⟨stepped (full (cfg 6) accX 0x15), rfl, by decide⟩, by decide, by decide,
    ⟨stepped (idle (ctl tiny .seek 0 7)), rfl⟩, by decide, by decide⟩

/-- Two states with other bytes, arrays and flag, both with a next state. -/
theorem witness_EveryStepKeepsControlAgreement :
    (full (cfg 6) accX 0x15).cfg = (full (cfg 6) accR 0xFF).cfg ∧ (full (cfg 6) accX 0x15).st = (full (cfg 6) accR 0xFF).st ∧
    (full (cfg 6) accX 0x15).cnt = (full (cfg 6) accR 0xFF).cnt ∧ (full (cfg 6) accX 0x15).gap = (full (cfg 6) accR 0xFF).gap ∧
    (full (cfg 6) accX 0x15).pktDone = (full (cfg 6) accR 0xFF).pktDone ∧
    (full (cfg 6) accX 0x15).inp.rst = (full (cfg 6) accR 0xFF).inp.rst ∧
    (full (cfg 6) accX 0x15).inp.rxValid = (full (cfg 6) accR 0xFF).inp.rxValid ∧
    (full (cfg 6) accX 0x15).acc ≠ (full (cfg 6) accR 0xFF).acc ∧
    (∃ t, step (full (cfg 6) accX 0x15) = .next t) ∧ (∃ t, step (full (cfg 6) accR 0xFF) = .next t) :=
  ⟨rfl, rfl, rfl, rfl, rfl, rfl, rfl, by decide, ⟨stepped (full (cfg 6) accX 0x15), rfl⟩, ⟨stepped (full (cfg 6) accR 0xFF), rfl⟩⟩

/-- A stimulus that begins with a reset, and two that do not. -/
theorem witness_ObservableResultOfARun : tiny.legal = true ∧ beginsWithReset [stRst, stRx 0x11] = true ∧
    beginsWithReset [stRx 0x11, stRst] = false ∧ beginsWithReset [] = false := ⟨by decide, rfl, by decide, by decide⟩

/-- The last byte of a packet is to come, and the one before it. -/
theorem witness_PulsesAreTheCommits : tiny.legal = true ∧
    After [stRx 0x11] (ctl tiny .locked 14 1) (ranTo [stRx 0x11] (ctl tiny .locked 14 1)) ∧
    (ranTo [stRx 0x11] (ctl tiny .locked 14 1)).cnt = 15 ∧
    After [stRx 0x11] (ctl tiny .locked 13 1) (ranTo [stRx 0x11] (ctl tiny .locked 13 1)) ∧
    (ranTo [stRx 0x11] (ctl tiny .locked 13 1)).cnt = 14 := ⟨by decide, rfl, by decide, rfl, by decide⟩

/-- Two packets and 15 bytes of a third; no packet and no byte. -/
theorem witness_PacketsOfARunAreTheStream : ShortGaps tiny (evenly 3 2) ∧ tiny.tTicks < 4 ∧ Ticked (evenly 9 15) ∧
    (evenly 9 15).length = 15 ∧ (∀ p ∈ [evenly 2 16, evenly 7 16], Ticked p ∧ p.length = 16) ∧
    Ticked (evenly 1 15) ∧ (evenly 1 15).length < 16 ∧ Ticked (evenly 1 0) ∧ (evenly 1 0).length < 16 := by
  unfold ShortGaps Ticked; decide

theorem witness_SecondsToTicks : 0 < 1000 := by decide

end Sys2Proof.Tests
end

section
/-! SUPPORT. The data ports (10_state.md R35): fields of one width packed into a word, the lanes of a packet. -/

namespace Sys2Proof.Machine

/-- The fields `f 0` to `f (m - 1)`, each of `w` bits, packed from bit 0 up into a word of `n` bits: the form that
`pkt_o` and `servo_o` share. -/
def packed (w n : Nat) (f : Nat → BitVec w) (m : Nat) : BitVec n :=
  (List.range m).foldl (fun v i => v ||| ((f i).setWidth n <<< (w * i))) 0

theorem pktO_eq_packed (P : Vector Byte 16) : pktO P = packed 8 128 (fun i => P.getD i 0) 16 := rfl

theorem servoO_eq_packed (n : Nat) (servo : List Pos) :
    servoO n servo = packed 11 (11 * n) (fun i => servo.getD i 0) n := rfl

theorem packed_succ (w n : Nat) (f : Nat → BitVec w) (m : Nat) :
    packed w n f (m + 1) = packed w n f m ||| ((f m).setWidth n <<< (w * m)) := by
  simp [packed, List.range_succ]

/-- A field ends before the fields after it begin. -/
theorem field_end_le (w : Nat) {i m : Nat} (h : i < m) : w * i + w ≤ w * m := Nat.mul_le_mul_left w h

/-- Bit `w * i + j` of a packed word is bit `j` of field `i`. -/
theorem getLsbD_packed {w n : Nat} (f : Nat → BitVec w) (m : Nat) {i j : Nat} (hj : j < w) (hn : w * i + j < n) :
    (packed w n f m).getLsbD (w * i + j) = (decide (i < m) && (f i).getLsbD j) := by
  induction m with
  | zero => simp [packed]
  | succ m ih =>
    rw [packed_succ, BitVec.getLsbD_or, ih, BitVec.getLsbD_shiftLeft, BitVec.getLsbD_setWidth]
    rcases Nat.lt_trichotomy i m with h | rfl | h
    · have hlt : w * i + j < w * m := by
        have := field_end_le w h
        omega
      simp [h, hlt, Nat.lt_succ_of_lt h]
    · simp [hn, Nat.lt_of_le_of_lt (Nat.le_add_left j _) hn]
    · have hge : w ≤ w * i + j - w * m := by
        have := field_end_le w h
        omega
      have h' : ¬ i < m + 1 := by omega
      simp [h', Nat.not_lt_of_lt h, BitVec.getLsbD_of_ge _ _ hge]

/-- Field `i` of a packed word that has room for it. -/
theorem extractLsb'_packed {w n : Nat} (f : Nat → BitVec w) {m i : Nat} (hi : i < m) (hn : w * m ≤ n) :
    (packed w n f m).extractLsb' (w * i) w = f i := by
  have hroom : w * i + w ≤ n := (field_end_le w hi).trans hn
  apply BitVec.eq_of_getLsbD_eq
  intro j hj
  simp [hj, getLsbD_packed f m hj (by omega : w * i + j < n), hi]

/-- Fields that are all zero make the word zero. -/
theorem packed_zero {w n : Nat} {f : Nat → BitVec w} {m : Nat} (h : ∀ i, i < m → f i = 0) : packed w n f m = 0 := by
  induction m with
  | zero => rfl
  | succ m ih =>
    rw [packed_succ, ih fun i hi => h i (Nat.lt_succ_of_lt hi), h m (Nat.lt_succ_self m)]
    simp

/-- Byte `i` of the packet on `pkt_o` (10_state.md R35). -/
theorem extractLsb'_pktO (P : Vector Byte 16) (i : Fin 16) : (pktO P).extractLsb' (8 * i.val) 8 = P[i.val] := by
  rw [pktO_eq_packed, extractLsb'_packed _ i.isLt (by decide)]
  simp [Vector.getD]

/-- Entry `i` of the table on `servo_o` (10_state.md R35). -/
theorem extractLsb'_servoO {n : Nat} {servo : List Pos} (hlen : servo.length = n) {i : Nat} (hi : i < n) :
    some ((servoO n servo).extractLsb' (11 * i) 11) = servo[i]? := by
  subst hlen
  rw [servoO_eq_packed, extractLsb'_packed _ hi (Nat.le_refl _)]
  simp [hi]

@[simp] theorem pktO_replicate_zero : pktO (Vector.replicate 16 0) = 0 :=
  packed_zero fun i hi => by simp [Vector.getD, hi]

@[simp] theorem servoO_replicate_zero (n : Nat) : servoO n (List.replicate n 0) = 0 :=
  packed_zero fun i hi => by simp [hi]

/-- The channel id is `b0[6:3]` (42_channel_decoder.md R124). -/
@[simp] theorem unpack_ch (b0 b1 : Byte) : (unpack b0 b1).ch = b0.extractLsb' 3 4 := by
  revert b0
  simp only [unpack]
  decide

/-- The mask `0x07` keeps the three low bits. -/
theorem and_seven_setWidth (b0 : Byte) : (b0 &&& 0x07).setWidth 11 = (b0.extractLsb' 0 3).setWidth 11 := by
  revert b0; decide

/-- The position is `{b0[2:0], b1}` (42_channel_decoder.md R124). -/
@[simp] theorem unpack_pos (b0 b1 : Byte) : (unpack b0 b1).pos = b0.extractLsb' 0 3 ++ b1 := by
  simp only [unpack, and_seven_setWidth, BitVec.append_def, BitVec.shiftLeftZeroExtend_eq, BitVec.setWidth'_eq]

@[simp] theorem laneOf_ch (P : Vector Byte 16) (k : Fin 7) : (laneOf P k).ch = (laneB0 P k).extractLsb' 3 4 :=
  unpack_ch _ _

@[simp] theorem laneOf_pos (P : Vector Byte 16) (k : Fin 7) :
    (laneOf P k).pos = (laneB0 P k).extractLsb' 0 3 ++ laneB1 P k :=
  unpack_pos _ _

theorem laneOf_replicate_zero (k : Fin 7) : laneOf (Vector.replicate 16 0) k = { ch := 0, pos := 0 } := by
  simp only [laneOf, laneB0, laneB1, Vector.getElem_replicate]
  rfl

variable (s : State) (k : Fin 7)

@[simp] theorem outputs_stO : (outputs s).stO = s.st.bits := rfl
@[simp] theorem outputs_gapFound : (outputs s).gapFound = s.st.gapFound := rfl
@[simp] theorem outputs_entCh : (outputs s).entCh[k.val] = (laneOf s.pkt k).ch := by simp [outputs]
@[simp] theorem outputs_entPos : (outputs s).entPos[k.val] = (laneOf s.pkt k).pos := by simp [outputs]
@[simp] theorem outputs_entOob : (outputs s).entOob[k.val] = oob s.cfg.nTable (laneOf s.pkt k).ch := by
  simp [outputs]

/-- The port `aligned` in words (10_state.md R34). -/
@[simp] theorem St.aligned_iff (x : St) : x.aligned = true ↔ x = .locked := by simp [St.aligned]

@[simp] theorem St.gapFound_prime : St.prime.gapFound = false := by decide

end Sys2Proof.Machine
end

section
/-! SUPPORT. What a step does to the aligner, the packet, the table and the flag: CAPT.LAST is the one operation that
commits, and `S_LOCKED` is entered at a packet boundary. -/

namespace Sys2Proof.Machine

/-- The cycle takes the 16th byte of a packet: the row of CAPT.LAST in the operation map (30_encoding.md R75). -/
def State.CompletesPacket (s : State) : Prop :=
  s.inp.rst = false ∧ s.inp.rxValid = true ∧ s.st = .locked ∧ s.cnt = 15

/-- Every lane is taken. -/
@[simp] theorem mem_laneOrder (k : Fin 7) : k ∈ laneOrder := by revert k; decide

/-- DECODE7 as R128 writes it is the demultiplexer run over the lanes in order. -/
theorem decode7_eq_foldl_demuxPair (n : Nat) (P : Vector Byte 16) (servo : List Pos) (anom : Bool) :
    decode7 n P servo anom = laneOrder.foldl (fun r k => demuxPair n (laneOf P k) r) (servo, anom) := by
  simp only [decode7, demuxPair, ← Nat.not_lt, ite_not, laneOf_ch, laneOf_pos]

/-- The flag after DECODE7: it was set, or a lane is out of the table (42_channel_decoder.md R128). -/
theorem decode7_flag (n : Nat) (P : Vector Byte 16) (servo : List Pos) (anom : Bool) :
    (decode7 n P servo anom).2 = true ↔ anom = true ∨ ∃ k : Fin 7, n ≤ ((laneB0 P k).extractLsb' 3 4).toNat := by
  rw [decode7_eq_foldl_demuxPair, foldl_demuxPair_flag]
  simp

variable {s : State}

theorem State.performed_of_rst (h : s.inp.rst = true) : s.performed = s.clear := by
  simp [State.performed, h]

/-- CAPT.LAST commits the packet and leaves the table and the flag as DECODE7 makes them (41_frame_aligner.md R107). -/
theorem State.performed_of_completesPacket (h : s.CompletesPacket) :
    s.performed =
      { s with pkt := s.completed, pktDone := true, cnt := 0, gap := 1, lane := some (laneOf s.completed 6)
               servo := (decode7 s.cfg.nTable s.completed s.servo s.anomOob).1
               anomOob := (decode7 s.cfg.nTable s.completed s.servo s.anomOob).2 } := by
  obtain ⟨hr, hv, hst, hcnt⟩ := h
  simp [State.performed, hr, hv, hst, hcnt, State.takePacket_eq, decode7_eq_foldl_demuxPair]

/-- An operation other than RESET and CAPT.LAST lowers the pulse and leaves the packet, the table and the flag. -/
theorem State.performed_of_not_completesPacket (hr : s.inp.rst = false) (h : ¬ s.CompletesPacket) :
    s.performed.pktDone = false ∧ s.performed.pkt = s.pkt ∧ s.performed.servo = s.servo ∧
      s.performed.anomOob = s.anomOob := by
  cases hv : s.inp.rxValid
  · simp [State.performed, hr, hv]
  · cases hst : s.st
    case prime => simp [State.performed, hr, hv, hst]
    case seek => by_cases hl : s.cfg.tTicks < s.gap <;> simp [State.performed, hr, hv, hst, hl]
    case flush => by_cases hc : s.cnt = 15#4 <;> simp [State.performed, hr, hv, hst, hc]
    case locked =>
      have hc : s.cnt ≠ 15#4 := fun hc => h ⟨hr, hv, hst, hc⟩
      simp [State.performed, hr, hv, hst, hc]

/-- An operation that enters `S_LOCKED` leaves `cnt = 0` (41_frame_aligner.md R105). -/
theorem State.performed_cnt_of_locks (hs : s.st ≠ .locked) (ht : s.performed.st = .locked) :
    s.performed.cnt = 0 := by
  cases hr : s.inp.rst
  · cases hv : s.inp.rxValid
    · simp [State.performed, hr, hv, hs] at ht
    · cases hst : s.st
      case prime => simp [State.performed, hr, hv, hst] at ht
      case seek => by_cases hl : s.cfg.tTicks < s.gap <;> simp [State.performed, hr, hv, hst, hl] at ht
      case flush => by_cases hc : s.cnt = 15#4 <;> simp [State.performed, hr, hv, hst, hc] at ht ⊢
      case locked => exact absurd hst hs
  · simp [State.performed_of_rst hr]

/-- The pulse after any operation (10_state.md R26). -/
theorem State.performed_pktDone_iff : s.performed.pktDone = true ↔ s.CompletesPacket := by
  by_cases h : s.CompletesPacket
  · simp [State.performed_of_completesPacket h, h]
  · cases hr : s.inp.rst
    · simp [State.performed_of_not_completesPacket hr h, h]
    · simp [State.performed_of_rst hr, h]

/-- The flag after any operation (10_state.md R28). -/
theorem State.performed_anomOob_iff :
    s.performed.anomOob = true ↔ s.inp.rst = false ∧
      (s.anomOob = true ∨
        s.CompletesPacket ∧ ∃ k : Fin 7, s.cfg.nTable ≤ ((laneB0 s.completed k).extractLsb' 3 4).toNat) := by
  by_cases h : s.CompletesPacket
  · rw [State.performed_of_completesPacket h]
    simp [decode7_flag, h, h.1]
  · cases hr : s.inp.rst
    · simp [State.performed_of_not_completesPacket hr h, h]
    · simp [State.performed_of_rst hr]

end Sys2Proof.Machine
end

section
/-! PROOFS. The statements about the state and its ports (10_state.md). -/

open Sys2Proof Sys2Proof.Machine

namespace Sys2Proof.Proofs

/-- Settles O26: the packed zero bytes and entries are zero words, and `N_TABLE >= 1` keeps channel 0 in the table. -/
theorem resetStateAndPorts : Obligations.ResetStateAndPorts := by
  intro c l hn
  have hlanes : ∀ k : Fin 7, laneOf (State.resetWith c l).pkt k = { ch := 0, pos := 0 } := laneOf_replicate_zero
  have hin : oob c.nTable 0 = false := decide_eq_false (Nat.not_le_of_lt hn)
  refine ⟨rfl, rfl, rfl, ?acc, ?pkt, rfl, ?servo, ?servoLength, rfl,
    rfl, rfl, ?gapFound, rfl, rfl, pktO_replicate_zero, ?lanes, servoO_replicate_zero c.nTable, rfl⟩
  case acc => intro i; simp [State.resetWith]
  case pkt => intro i; simp [State.resetWith]
  case servo => intro i hi; simp [State.resetWith, hi]
  case servoLength => simp [State.resetWith]
  case gapFound => rw [outputs_gapFound]; exact St.gapFound_prime
  case lanes =>
    intro k
    rw [outputs_entCh, outputs_entPos, outputs_entOob, hlanes]
    exact ⟨rfl, rfl, hin⟩

/-- Settles O27: the ports are read off the state, and FLUSH.LAST is the one operation that enters `S_LOCKED`. -/
theorem statusPortsShowTheAligner : Obligations.StatusPortsShowTheAligner := by
  refine ⟨fun s => ⟨?_, rfl, rfl, St.aligned_iff s.st, rfl⟩, fun s t hstep hs ht => ?_⟩
  · rw [outputs_stO]
    cases s.st <;> rfl
  · obtain ⟨-, rfl⟩ := step_next hstep
    refine State.performed_cnt_of_locks (fun hl => ?_) ((St.aligned_iff _).1 ht)
    exact Bool.false_ne_true (hs.symm.trans ((St.aligned_iff s.st).2 hl))

/-- Settles O28, from the next state of CAPT.LAST. -/
theorem outputsFollowTheStateOnly : Obligations.OutputsFollowTheStateOnly := by
  refine ⟨fun s l => rfl, fun s t hstep hr hv hst hcnt => ?_⟩
  obtain ⟨-, rfl⟩ := step_next hstep
  rw [State.performed_of_completesPacket ⟨hr, hv, hst, hcnt⟩]
  refine ⟨rfl, rfl, rfl, fun k => ?_, rfl⟩
  rw [outputs_entCh, outputs_entPos, outputs_entOob]
  exact ⟨rfl, rfl, rfl⟩

/-- Settles O29: the two packed words field by field, the lanes by the bit fields of the unpacker. -/
theorem dataPortsShowPacketAndTable : Obligations.DataPortsShowPacketAndTable := by
  intro s hlen
  refine ⟨rfl, extractLsb'_pktO s.pkt, fun i hi => extractLsb'_servoO hlen hi, fun k => ?_⟩
  rw [outputs_entCh, outputs_entPos, outputs_entOob, oob_iff]
  exact ⟨laneOf_ch s.pkt k, laneOf_pos s.pkt k, Iff.rfl⟩

/-- Settles O35, from the pulse after each operation. -/
theorem pktDoneIsThePulseOfCaptLast : Obligations.PktDoneIsThePulseOfCaptLast := by
  intro s t hstep
  obtain ⟨-, rfl⟩ := step_next hstep
  exact State.performed_pktDone_iff

/-- Settles O36, from the flag after each operation. -/
theorem anomalyFlagRule : Obligations.AnomalyFlagRule := by
  intro s t hstep
  obtain ⟨-, rfl⟩ := step_next hstep
  rw [State.edge_anomOob, State.performed_anomOob_iff]
  refine and_congr_right fun hr => or_congr_right ?_
  simp [State.CompletesPacket, hr, and_assoc]

end Sys2Proof.Proofs
end

section
/-! SUPPORT. Which operation a cycle performs, in terms of its inputs and the state: one law per row of the operation
map (30_encoding.md R75). -/

namespace Sys2Proof.Machine

/-- The operation of a cycle as the rows of R75 name it, with the selector bits each row leaves open. -/
def State.operation (s : State) : Instr :=
  if s.inp.rst then
    .reset (BitVec.ofBool s.inp.rxValid ++ s.st.bits ++ BitVec.ofBool s.long ++ BitVec.ofBool s.last)
  else if !s.inp.rxValid then .tick (s.st.bits ++ BitVec.ofBool s.long ++ BitVec.ofBool s.last)
  else
    match s.st with
    | .prime => .prime (BitVec.ofBool s.long ++ BitVec.ofBool s.last)
    | .seek => if s.long then .seekLock (BitVec.ofBool s.last) else .seekSkip (BitVec.ofBool s.last)
    | .flush => if s.last then .flushLast (BitVec.ofBool s.long) else .flushSkip (BitVec.ofBool s.long)
    | .locked => if s.last then .captLast (BitVec.ofBool s.long) else .captStore (BitVec.ofBool s.long)

theorem picks_operation (s : State) : Picks s s.operation := by
  rw [Picks, decode_selByte, State.selector, decodeSel_parts]
  rfl

/-- A cycle performs one operation and no other (30_encoding.md R74, R76). -/
theorem picks_iff {s : State} {i : Instr} : Picks s i ↔ i = s.operation :=
  ⟨fun h => Except.ok.inj (h.symm.trans (picks_operation s)), fun h => h ▸ picks_operation s⟩

/-- A row of the map that the cycle picks names the operation of the cycle. -/
theorem State.operation_eq_of_picks {s : State} {w : Nat} {op : BitVec w → Instr} (h : ∃ x, Picks s (op x)) :
    ∃ x, s.operation = op x :=
  h.imp fun _ hx => (picks_iff.1 hx).symm

section Rows

variable {s : State}

theorem picks_reset (hr : s.inp.rst = true) : ∃ x, Picks s (.reset x) := by
  simp [picks_iff, State.operation, hr]

variable (hr : s.inp.rst = false)
include hr

theorem picks_tick (hv : s.inp.rxValid = false) : ∃ x, Picks s (.tick x) := by
  simp [picks_iff, State.operation, hr, hv]

variable (hv : s.inp.rxValid = true)
include hv

theorem picks_prime (hst : s.st = .prime) : ∃ x, Picks s (.prime x) := by
  simp [picks_iff, State.operation, hr, hv, hst]

theorem picks_seekSkip (hst : s.st = .seek) (hg : s.gap ≤ s.cfg.tTicks) : ∃ x, Picks s (.seekSkip x) := by
  simp [picks_iff, State.operation, hr, hv, hst, Nat.not_lt.2 hg]

theorem picks_seekLock (hst : s.st = .seek) (hg : s.cfg.tTicks < s.gap) : ∃ x, Picks s (.seekLock x) := by
  simp [picks_iff, State.operation, hr, hv, hst, hg]

theorem picks_flushSkip (hst : s.st = .flush) (hc : s.cnt ≠ 15) : ∃ x, Picks s (.flushSkip x) := by
  simp [picks_iff, State.operation, hr, hv, hst, mt s.last_iff.1 hc]

theorem picks_flushLast (hst : s.st = .flush) (hc : s.cnt = 15) : ∃ x, Picks s (.flushLast x) := by
  simp [picks_iff, State.operation, hr, hv, hst, s.last_iff.2 hc]

theorem picks_captStore (hst : s.st = .locked) (hc : s.cnt ≠ 15) : ∃ x, Picks s (.captStore x) := by
  simp [picks_iff, State.operation, hr, hv, hst, mt s.last_iff.1 hc]

theorem picks_captLast (hst : s.st = .locked) (hc : s.cnt = 15) : ∃ x, Picks s (.captLast x) := by
  simp [picks_iff, State.operation, hr, hv, hst, s.last_iff.2 hc]

end Rows
end Sys2Proof.Machine
end

section
/-! SUPPORT. CAPT.LAST and its sub-operations (30_encoding.md R77): each lane's two sub-operations are one turn of the
loop of DECODE7, and a lane does not depend on the flag bit of its first byte. -/

namespace Sys2Proof.Machine

/-- The channel id of an entry word is the one its bytes unpack to (30_encoding.md R73, 42_channel_decoder.md R124). -/
theorem entChan_append (b0 b1 : Byte) : entChan (b0 ++ b1) = (unpack b0 b1).ch := by
  rw [unpack_ch]
  exact BitVec.extractLsb'_append_eq_of_le (by decide)

/-- The position of an entry word is the one its bytes unpack to (30_encoding.md R73, 42_channel_decoder.md R124). -/
theorem entPos_append (b0 b1 : Byte) : entPos (b0 ++ b1) = (unpack b0 b1).pos :=
  calc (b0 ++ b1).extractLsb' 0 11
    _ = (b0 ++ b1).extractLsb' 8 3 ++ (b0 ++ b1).extractLsb' 0 8 :=
      (BitVec.extractLsb'_append_extractLsb'_eq_extractLsb' (start₁ := 0) (len₁ := 8) (len₂ := 3) rfl).symm
    _ = b0.extractLsb' 0 3 ++ b1 := by
      rw [BitVec.extractLsb'_append_eq_of_le (Nat.le_refl 8), BitVec.extractLsb'_append_eq_right]
    _ = (unpack b0 b1).pos := (unpack_pos b0 b1).symm

/-- The demultiplexer operation a lane's word selects does what the demultiplexer does on that lane. -/
theorem exec_decodeDemux (s : State) (b0 b1 : Byte) :
    exec (decodeDemux s.cfg.nTable (b0 ++ b1)) s = .next (s.demux (unpack b0 b1)) := by
  rw [decodeDemux, entChan_append, entPos_append]
  by_cases h : (unpack b0 b1).ch.toNat < s.cfg.nTable
  · rw [if_pos h, State.demux_eq, if_neg (Nat.not_le.2 h)]
    rfl
  · rw [if_neg h, State.demux_eq, if_pos (Nat.not_lt.1 h)]
    rfl

theorem execAll_cons {i : Instr} {s t : State} (is : List Instr) (h : exec i s = .next t) :
    execAll (i :: is) s = execAll is t := by
  rw [execAll, h]

theorem execAll_append {is : List Instr} {s t : State} (js : List Instr) (h : execAll is s = .next t) :
    execAll (is ++ js) s = execAll js t := by
  induction is generalizing s with
  | nil => cases h; rfl
  | cons i is ih =>
    cases hi : exec i s
    case next u =>
      rw [execAll_cons is hi] at h
      rw [List.cons_append, execAll_cons _ hi, ih h]
    case fault | refused => simp [execAll, hi] at h

/-- The sub-operations of lane `k` of the packet `P`: ENT.UNPACK, then the demultiplexer operation its word selects. -/
def laneOperations (n : Nat) (P : Vector Byte 16) (k : Fin 7) : List Instr :=
  [.entUnpack (laneB0 P k) (laneB1 P k), decodeDemux n (laneB0 P k ++ laneB1 P k)]

theorem subOperations_eq (n : Nat) (P : Vector Byte 16) :
    subOperations n P = .hdrSkip P[0] P[1] :: laneOrder.flatMap (laneOperations n P) := rfl

@[simp] theorem State.takeLane_cfg (P : Vector Byte 16) (s : State) (k : Fin 7) : (s.takeLane P k).cfg = s.cfg := by
  rw [State.takeLane_eq]

/-- The two sub-operations of a lane are one turn of the loop of DECODE7. -/
theorem execAll_laneOperations (P : Vector Byte 16) (s : State) (k : Fin 7) :
    execAll (laneOperations s.cfg.nTable P k) s = .next (s.takeLane P k) := by
  have hunpack : exec (.entUnpack (laneB0 P k) (laneB1 P k)) s = .next (s.driveLane (laneOf P k)) := rfl
  have hdemux : exec (decodeDemux s.cfg.nTable (laneB0 P k ++ laneB1 P k)) (s.driveLane (laneOf P k)) =
      .next (s.takeLane P k) := exec_decodeDemux (s.driveLane (laneOf P k)) _ _
  rw [laneOperations, execAll_cons _ hunpack, execAll_cons _ hdemux, execAll]

/-- The sub-operations of any lanes, in order, are the turns of the loop for them. -/
theorem execAll_flatMap_laneOperations (P : Vector Byte 16) (ks : List (Fin 7)) (s : State) :
    execAll (ks.flatMap (laneOperations s.cfg.nTable P)) s = .next (ks.foldl (State.takeLane P) s) := by
  induction ks generalizing s with
  | nil => rfl
  | cons k ks ih =>
    rw [List.flatMap_cons, execAll_append _ (execAll_laneOperations P s k), ← State.takeLane_cfg P s k, ih]
    rfl

/-- All the sub-operations of a packet are DECODE7 (42_channel_decoder.md R128). -/
theorem execAll_subOperations (P : Vector Byte 16) (s : State) :
    execAll (subOperations s.cfg.nTable P) s = .next (s.decodeLanes P) := by
  rw [subOperations_eq, execAll_cons (t := s) _ rfl]
  exact execAll_flatMap_laneOperations P laneOrder s

/-- The next state of CAPT.LAST (41_frame_aligner.md R107), with DECODE7 as R128 writes it. -/
theorem exec_captLast (x : BitVec 1) (s : State) :
    exec (.captLast x) s =
      .next { s with pkt := s.completed, pktDone := true, cnt := 0, gap := 1, lane := some (laneOf s.completed 6)
                     servo := (decode7 s.cfg.nTable s.completed s.servo s.anomOob).1
                     anomOob := (decode7 s.cfg.nTable s.completed s.servo s.anomOob).2 } := by
  rw [exec, execCaptLast, State.takePacket_eq, decode7_eq_foldl_demuxPair]

/-- Setting the flag bit changes nothing of what a lane unpacks to (30_encoding.md R80). -/
theorem unpack_flagBit (b0 b1 : Byte) : unpack (b0 ||| 0x80) b1 = unpack b0 b1 := by
  have hmask : (b0 ||| 0x80) &&& 0x78 = b0 &&& 0x78 ∧ (b0 ||| 0x80) &&& 0x07 = b0 &&& 0x07 := by revert b0; decide
  rw [unpack, unpack, hmask.1, hmask.2]

/-- Lanes that agree but for the flag bit unpack to the same. -/
theorem laneOf_eq_of_flagBit {P Q : Vector Byte 16} {k : Fin 7} (h0 : laneB0 P k ||| 0x80 = laneB0 Q k ||| 0x80)
    (h1 : laneB1 P k = laneB1 Q k) : laneOf P k = laneOf Q k := by
  rw [laneOf, laneOf, ← unpack_flagBit, h0, h1, unpack_flagBit]

/-- DECODE7 reads nothing of a packet but its lanes. -/
theorem decode7_congr {P Q : Vector Byte 16} (h : ∀ k, laneOf P k = laneOf Q k) (n : Nat) :
    decode7 n P = decode7 n Q := by
  funext servo anom
  simp only [decode7_eq_foldl_demuxPair, h]

end Sys2Proof.Machine
end

section
/-! PROOFS. The statements about the encoding of operations and packets (30_encoding.md). -/

open Sys2Proof Sys2Proof.Machine

namespace Sys2Proof.Proofs

/-- Settles O16: the one operation of the cycle, row by row of the operation map. -/
theorem operationMapSelects : Obligations.OperationMapSelects := fun s =>
  ⟨s.operation, picks_operation s,
    fun hr => State.operation_eq_of_picks (picks_reset hr),
    fun hr hv => State.operation_eq_of_picks (picks_tick hr hv),
    fun hr hv hst => State.operation_eq_of_picks (picks_prime hr hv hst),
    fun hr hv hst hg => State.operation_eq_of_picks (picks_seekSkip hr hv hst hg),
    fun hr hv hst hg => State.operation_eq_of_picks (picks_seekLock hr hv hst hg),
    fun hr hv hst hc => State.operation_eq_of_picks (picks_flushSkip hr hv hst hc),
    fun hr hv hst hc => State.operation_eq_of_picks (picks_flushLast hr hv hst hc),
    fun hr hv hst hc => State.operation_eq_of_picks (picks_captStore hr hv hst hc),
    fun hr hv hst hc => State.operation_eq_of_picks (picks_captLast hr hv hst hc)⟩

/-- Settles O21: the sub-operations from the committed packet are DECODE7, and CAPT.LAST runs it the same. -/
theorem captLastRunsItsSubOperations : Obligations.CaptLastRunsItsSubOperations := fun _ s =>
  ⟨s.takePacket, execAll_subOperations s.completed (s.commit s.completed), rfl⟩

/-- Settles O25: the two packets have the same lanes, and DECODE7 and the lane ports read nothing else of a packet. -/
theorem ignoredBitsHaveNoEffect : Obligations.IgnoredBitsHaveNoEffect := by
  intro x y s s' hcfg hservo hanom hbytes
  have hlane : ∀ k, laneOf s.completed k = laneOf s'.completed k := fun k =>
    laneOf_eq_of_flagBit (hbytes k).1 (hbytes k).2
  have hdecode : decode7 s.cfg.nTable s.completed s.servo s.anomOob =
      decode7 s'.cfg.nTable s'.completed s'.servo s'.anomOob := by
    rw [hcfg, hservo, hanom, decode7_congr hlane]
  refine ⟨_, _, exec_captLast x s, exec_captLast y s', rfl, rfl, congrArg Prod.fst hdecode, congrArg Prod.snd hdecode,
    ?entCh, ?entPos, ?entOob⟩
  case entCh => simp only [outputs, hlane]
  case entPos => simp only [outputs, hlane]
  case entOob => simp only [outputs, hlane, hcfg]

end Sys2Proof.Proofs
end

section
/-! SUPPORT. The gap timer (40_timing_sync.md R97): what RESET, a byte and a cycle with neither make of it, and that it
stays within `GAP_MAX`. -/

namespace Sys2Proof

/-- The values of `GAP_W` bits are those up to `GAP_MAX` (40_timing_sync.md R94). -/
theorem Config.le_gapMax_iff (c : Config) (g : Nat) : g ≤ c.gapMax ↔ g < 2 ^ c.gapW :=
  Nat.le_sub_one_iff_lt (Nat.two_pow_pos c.gapW)

namespace Machine

theorem satInc_le_gapMax {c : Config} {g : Nat} (h : g ≤ c.gapMax) : satInc c g ≤ c.gapMax := by
  unfold satInc
  split
  · exact h
  · omega

variable {s : State}

/-- TICK is what a cycle with neither reset nor byte performs (40_timing_sync.md R92). -/
theorem State.performed_of_noByte (hr : s.inp.rst = false) (hv : s.inp.rxValid = false) :
    s.performed = { s with gap := satInc s.cfg s.gap, pktDone := false } := by
  simp [State.performed, hr, hv]

/-- Every byte operation restarts the timer at 1 (40_timing_sync.md R91). -/
theorem State.performed_gap_of_byte (hr : s.inp.rst = false) (hv : s.inp.rxValid = true) : s.performed.gap = 1 := by
  cases hst : s.st
  case prime => simp [State.performed, hr, hv, hst]
  case seek => by_cases hl : s.cfg.tTicks < s.gap <;> simp [State.performed, hr, hv, hst, hl]
  case flush => by_cases hc : s.cnt = 15#4 <;> simp [State.performed, hr, hv, hst, hc]
  case locked => by_cases hc : s.cnt = 15#4 <;> simp [State.performed, hr, hv, hst, hc]

/-- The timer after any operation (40_timing_sync.md R97). -/
theorem State.performed_gap (s : State) :
    s.performed.gap = if s.inp.rst = true then 0 else if s.inp.rxValid = true then 1 else satInc s.cfg s.gap := by
  cases hr : s.inp.rst
  · cases hv : s.inp.rxValid
    · simp [State.performed_of_noByte hr hv]
    · simp [State.performed_gap_of_byte hr hv]
  · simp [State.performed_of_rst hr]

/-- No operation takes the timer past `GAP_MAX` (10_state.md R31). -/
theorem State.performed_gap_le (hc : s.cfg.legal = true) (hg : s.gap ≤ s.cfg.gapMax) :
    s.performed.gap ≤ s.cfg.gapMax := by
  rw [State.performed_gap]
  split
  · exact Nat.zero_le _
  · split
    · exact Config.one_le_gapMax hc
    · exact satInc_le_gapMax hg

end Machine
end Sys2Proof
end

section
/-! PROOFS. The statements about the timing synchroniser (40_timing_sync.md). -/

open Sys2Proof Sys2Proof.Machine

namespace Sys2Proof.Proofs

/-- Settles O34: the timer after the one operation of the cycle, which leaves it within `GAP_MAX`. -/
theorem gapTimerRule : Obligations.GapTimerRule := by
  intro s hlegal
  refine ⟨_, step_eq hlegal, State.performed_gap s, fun hg => ?_⟩
  rw [← Config.le_gapMax_iff] at hg ⊢
  exact State.performed_gap_le hlegal hg

/-- Settles O2: the meaning of TICK is its pseudocode, and the operation map selects it in a cycle with no byte. -/
theorem tickCountsUpAndSaturates : Obligations.TickCountsUpAndSaturates :=
  ⟨fun _ _ => rfl, fun _ hr hv => picks_tick hr hv⟩

end Sys2Proof.Proofs
end

section
/-! SUPPORT. The aligner (41_frame_aligner.md): the next state of each byte operation, the cells of the transition table,
and what a run without reset keeps. -/

namespace Sys2Proof.Machine

/-- Below 15 the packet index counts up as a number (10_state.md R22). -/
theorem cnt_succ_toNat {c : BitVec 4} (h : c ≠ 15) : (c + 1).toNat = c.toNat + 1 := by
  have hlt : c.toNat ≠ 15 := fun hc => h (BitVec.eq_of_toNat_eq hc)
  bv_omega

section Rows

variable {s : State} (hr : s.inp.rst = false) (hv : s.inp.rxValid = true)
include hr hv

theorem State.performed_of_prime (hst : s.st = .prime) : s.performed = s.byteSeen.goto .seek s.cnt := by
  simp [State.performed, hr, hv, hst]

theorem State.performed_of_seekSkip (hst : s.st = .seek) (hg : s.gap ≤ s.cfg.tTicks) : s.performed = s.byteSeen := by
  simp [State.performed, hr, hv, hst, Nat.not_lt.2 hg]

theorem State.performed_of_seekLock (hst : s.st = .seek) (hg : s.cfg.tTicks < s.gap) :
    s.performed = s.byteSeen.goto .flush 1 := by
  simp [State.performed, hr, hv, hst, hg]

theorem State.performed_of_flushSkip (hst : s.st = .flush) (hc : s.cnt ≠ 15) :
    s.performed = s.byteSeen.goto .flush (s.cnt + 1) := by
  simp [State.performed, hr, hv, hst, show s.cnt ≠ 15#4 from hc]

theorem State.performed_of_flushLast (hst : s.st = .flush) (hc : s.cnt = 15) :
    s.performed = s.byteSeen.goto .locked 0 := by
  simp [State.performed, hr, hv, hst, hc]

theorem State.performed_of_captStore (hst : s.st = .locked) (hc : s.cnt ≠ 15) :
    s.performed = s.byteSeen.storeAcc.goto .locked (s.cnt + 1) := by
  simp [State.performed, hr, hv, hst, show s.cnt ≠ 15#4 from hc]

end Rows

/-- A cell of the transition table (41_frame_aligner.md R110): `(st, cnt)` after the clock edge is that of the operation's
next state, and the operation is the one of the row the cycle picks. -/
theorem State.transition_cell {s u : State} {c : St × BitVec 4} {w : Nat} {op : BitVec w → Instr}
    (hnext : s.performed = u) (hcell : (u.st, u.cnt) = c) (hrow : ∃ x, Picks s (op x)) :
    (s.performed.edge.st, s.performed.edge.cnt) = c ∧ ∃ x, s.operation = op x :=
  ⟨hnext ▸ hcell, State.operation_eq_of_picks hrow⟩

/-- The moves of the aligner from one state to the next (41_frame_aligner.md R108). -/
def St.moves : List (St × St) := [(St.prime, .seek), (.seek, .flush), (.flush, .locked)]

/-- An operation other than RESET keeps `st` or moves it to the next of the four states (41_frame_aligner.md R108). -/
theorem State.performed_st {s : State} (hr : s.inp.rst = false) :
    s.performed.st = s.st ∨ (s.st, s.performed.st) ∈ St.moves := by
  cases hv : s.inp.rxValid
  · exact .inl (by rw [State.performed_of_noByte hr hv])
  · cases hst : s.st
    case prime => exact .inr (by simp [St.moves, State.performed_of_prime hr hv hst])
    case seek =>
      rcases Nat.lt_or_ge s.cfg.tTicks s.gap with hg | hg
      · exact .inr (by simp [St.moves, State.performed_of_seekLock hr hv hst hg])
      · exact .inl (by simp [State.performed_of_seekSkip hr hv hst hg, hst])
    case flush =>
      by_cases hc : s.cnt = 15
      · exact .inr (by simp [St.moves, State.performed_of_flushLast hr hv hst hc])
      · exact .inl (by simp [State.performed_of_flushSkip hr hv hst hc])
    case locked =>
      by_cases hc : s.cnt = 15
      · exact .inl (by simp [State.performed_of_completesPacket ⟨hr, hv, hst, hc⟩, hst])
      · exact .inl (by simp [State.performed_of_captStore hr hv hst hc])

/-- The encoding of `st` grows with the order of the states. -/
theorem St.bits_le_of_mem_moves : ∀ p ∈ St.moves, p.1.bits.toNat ≤ p.2.bits.toNat := by decide

/-- `S_LOCKED` is the last of the states. -/
theorem St.eq_locked_of_le {x : St} (h : St.locked.bits.toNat ≤ x.bits.toNat) : x = .locked := by
  revert h; cases x <;> decide

/-- A cycle without reset does not lower `st` (41_frame_aligner.md R108). -/
theorem cycle_st_ge (s : State) {i : Input} (hi : i.rst = false) :
    s.st.bits.toNat ≤ (cycle s i).st.bits.toNat := by
  rcases State.performed_st (s := s.given [i]) hi with hkeep | hnext
  · exact Nat.le_of_eq (congrArg (fun x => x.bits.toNat) hkeep.symm)
  · exact St.bits_le_of_mem_moves _ hnext

variable {s t : State} {l : List Input}

/-- The state after a run is the fold of `cycle`, under any configuration: under an illegal one only the empty run has a
state after it. -/
theorem After.eq_foldl (h : After l s t) : t = l.foldl cycle (s.given []) := by
  cases hc : s.cfg.legal
  case true => exact (after_iff hc l).1 h
  case false =>
    cases l with
    | nil => exact (Host.Outcome.next.inj h).symm
    | cons i l => simp [After, Runs, runFor, step_illegal (s := s.given (i :: l)) hc] at h

/-- What every cycle without reset keeps, a run without reset keeps. -/
theorem After.keeps {P : State → Prop} (hcycle : ∀ u i, i.rst = false → P u → P (cycle u i)) (h : After l s t)
    (hl : NoReset l) (hs : P (s.given [])) : P t := by
  rw [h.eq_foldl]
  exact List.foldlRecOn l cycle hs fun u hu i hi => hcycle u i (hl i hi) hu

end Sys2Proof.Machine
end

section
/-! PROOFS. The statements about the frame aligner (41_frame_aligner.md). -/

open Sys2Proof Sys2Proof.Machine

namespace Sys2Proof.Proofs

/-- Settles O8: below 15 `cnt` counts up as a number, and setting one entry of `acc` leaves the others. -/
theorem captStoreWritesOneByte : Obligations.CaptStoreWritesOneByte := by
  refine ⟨fun x s hc => ⟨_, s.acc.setIfInBounds s.cnt.toNat s.inp.rxData, cnt_succ_toNat hc, rfl, fun i => ?_⟩,
    fun s hr hv hst hc => picks_captStore hr hv hst hc⟩
  rw [Vector.getElem_setIfInBounds]
  exact if_congr eq_comm rfl rfl

/-- Settles O9, from the next state of CAPT.LAST. -/
theorem captLastCommitsAndDecodes : Obligations.CaptLastCommitsAndDecodes :=
  ⟨fun x s => ⟨_, exec_captLast x s, Vector.toList_push, rfl, rfl, rfl, rfl, rfl, rfl, rfl, rfl⟩,
    fun _ hr hv hst hc => picks_captLast hr hv hst hc⟩

/-- Settles O32: cell by cell, the operation's next state and its row of the operation map. -/
theorem transitionTable : Obligations.TransitionTable := by
  intro s hlegal
  refine ⟨_, s.operation, step_eq hlegal, picks_operation s, ?_⟩
  split
  case isTrue hr => exact State.transition_cell (State.performed_of_rst hr) rfl (picks_reset hr)
  case isFalse hr =>
    rw [Bool.not_eq_true] at hr
    split
    case isTrue hv => exact State.transition_cell (State.performed_of_noByte hr hv) rfl (picks_tick hr hv)
    case isFalse hv =>
      rw [Bool.not_eq_false] at hv
      split
      next hst => exact State.transition_cell (State.performed_of_prime hr hv hst) rfl (picks_prime hr hv hst)
      next hst =>
        split
        case isTrue hg =>
          exact State.transition_cell (State.performed_of_seekLock hr hv hst hg) rfl
            (picks_seekLock hr hv hst hg)
        case isFalse hg =>
          rw [Nat.not_lt] at hg
          exact State.transition_cell (State.performed_of_seekSkip hr hv hst hg) (congrArg (·, s.cnt) hst)
            (picks_seekSkip hr hv hst hg)
      next hst =>
        split
        case isTrue hc =>
          exact State.transition_cell (State.performed_of_flushLast hr hv hst hc) rfl
            (picks_flushLast hr hv hst hc)
        case isFalse hc =>
          exact State.transition_cell (State.performed_of_flushSkip hr hv hst hc) rfl
            (picks_flushSkip hr hv hst hc)
      next hst =>
        split
        case isTrue hc =>
          exact State.transition_cell (State.performed_of_completesPacket ⟨hr, hv, hst, hc⟩) (congrArg (·, 0) hst)
            (picks_captLast hr hv hst hc)
        case isFalse hc =>
          exact State.transition_cell (State.performed_of_captStore hr hv hst hc) rfl
            (picks_captStore hr hv hst hc)

/-- Settles O40: no cycle without reset lowers `st`, so no run does, and `S_LOCKED` is the last state. -/
theorem alignerNeverGoesBack : Obligations.AlignerNeverGoesBack := by
  refine ⟨fun s t hstep hr => ?step, fun s t l hl hrun => ?run⟩
  case step =>
    obtain ⟨-, rfl⟩ := step_next hstep
    exact State.performed_st hr
  case run =>
    have hle : s.st.bits.toNat ≤ t.st.bits.toNat :=
      hrun.keeps (P := fun u => s.st.bits.toNat ≤ u.st.bits.toNat)
        (fun u _ hi hu => hu.trans (cycle_st_ge u hi)) hl (Nat.le_refl _)
    exact ⟨hle, fun hlocked => St.eq_locked_of_le (hlocked ▸ hle)⟩

/-- Settles O3: the meaning of PRIME is its pseudocode, and its row does not read the gap. -/
theorem primeDiscardsTheByte : Obligations.PrimeDiscardsTheByte :=
  ⟨fun _ _ => rfl, fun _ hr hv hst => picks_prime hr hv hst⟩

/-- Settles O4: the meaning of SEEK.SKIP is its pseudocode, and a gap of at most `T_TICKS` picks its row. -/
theorem seekSkipStays : Obligations.SeekSkipStays :=
  ⟨fun _ _ => rfl, fun _ hr hv hst hg => picks_seekSkip hr hv hst hg⟩

/-- Settles O5: the meaning of SEEK.LOCK is its pseudocode, and a gap above `T_TICKS` picks its row. -/
theorem seekLockStartsTheFlush : Obligations.SeekLockStartsTheFlush :=
  ⟨fun _ _ => rfl, fun _ hr hv hst hg => picks_seekLock hr hv hst hg⟩

/-- Settles O6: below 15 `cnt` counts up as a number. -/
theorem flushSkipCounts : Obligations.FlushSkipCounts :=
  ⟨fun _ _ hc => ⟨_, cnt_succ_toNat hc, rfl⟩, fun _ hr hv hst hc => picks_flushSkip hr hv hst hc⟩

/-- Settles O7: the meaning of FLUSH.LAST is its pseudocode, and `cnt = 15` picks its row. -/
theorem flushLastEstablishesAlignment : Obligations.FlushLastEstablishesAlignment :=
  ⟨fun _ _ => rfl, fun _ hr hv hst hc => picks_flushLast hr hv hst hc⟩

end Sys2Proof.Proofs
end

section
/-! SUPPORT. The sub-operations on their own (42_channel_decoder.md): a lane in bit fields, the lanes' independence of
the header, and the packet that `pkt_o` shows. -/

namespace Sys2Proof.Machine

/-- The unpacked lane in bit fields: `c = b0[6:3]`, `p = {b0[2:0], b1}` (42_channel_decoder.md R124). -/
theorem unpack_eq (b0 b1 : Byte) : unpack b0 b1 = { ch := b0.extractLsb' 3 4, pos := b0.extractLsb' 0 3 ++ b1 } := by
  rw [← unpack_ch b0 b1, ← unpack_pos b0 b1]

theorem exec_entUnpack (b0 b1 : Byte) (s : State) :
    exec (.entUnpack b0 b1) s = .next { s with lane := some (unpack b0 b1) } := rfl

theorem exec_demuxWrite (f : BitVec 1) (c : Chan) (p : Pos) (s : State) :
    exec (.demuxWrite f c p) s = .next { s with servo := s.servo.set c.toNat p } := rfl

/-- A lane reads its own two bytes, and both stand at index 2 or above: two packets that agree there have the same
lanes (42_channel_decoder.md R123). -/
theorem laneOf_congr_of_entries {P Q : Vector Byte 16} (h : ∀ i : Fin 16, 2 ≤ i.val → P[i.val] = Q[i.val])
    (k : Fin 7) : laneOf P k = laneOf Q k := by
  have h0 : laneB0 P k = laneB0 Q k := h ⟨2 + 2 * k.val, by omega⟩ (Nat.le_add_right 2 _)
  have h1 : laneB1 P k = laneB1 Q k := h ⟨3 + 2 * k.val, by omega⟩ (Nat.le_add_right_of_le (by decide))
  rw [laneOf, laneOf, h0, h1]

@[simp] theorem outputs_pktO (s : State) : (outputs s).pktO = pktO s.pkt := rfl

/-- Equal words on `pkt_o` show equal packets, byte for byte (10_state.md R35). -/
theorem getElem_eq_of_pktO_eq {P Q : Vector Byte 16} (h : pktO P = pktO Q) (i : Fin 16) : P[i.val] = Q[i.val] := by
  rw [← extractLsb'_pktO P i, ← extractLsb'_pktO Q i, h]

theorem flipFlagBit_ne (b : Byte) : b ^^^ 0x80 ≠ b := by revert b; decide

end Sys2Proof.Machine
end

section
/-! PROOFS. The statements about the channel decoder's sub-operations (42_channel_decoder.md). -/

open Sys2Proof Sys2Proof.Machine

namespace Sys2Proof.Proofs

/-- Settles O12: the table written is `servo.set`, and the index is inside it. -/
theorem demuxWriteOverwritesOneEntry : Obligations.DemuxWriteOverwritesOneEntry := by
  intro f c p s hlen hc
  have hin : c.toNat < s.servo.length := hlen ▸ hc
  exact ⟨s.servo.set c.toNat p, exec_demuxWrite f c p s, List.length_set, List.getElem?_set_self hin,
    fun _ hi => List.getElem?_set_ne hi.symm⟩

/-- Settles O24: neither mask of the unpack has bit 7, and `pkt_o` shows every bit of the packet. -/
theorem flagBitIsIgnored : Obligations.FlagBitIsIgnored := by
  refine ⟨fun b0 b1 s => ?unpacked, fun s s' k hflip hport => ?shown⟩
  case unpacked => rw [exec_entUnpack, exec_entUnpack, unpack_flagBit]
  case shown =>
    have hsame : s.pkt[2 + 2 * k.val] = s'.pkt[2 + 2 * k.val] :=
      getElem_eq_of_pktO_eq hport ⟨2 + 2 * k.val, by omega⟩
    exact flipFlagBit_ne _ (hflip.symm.trans hsame)

/-- Settles O10: HDR.SKIP has no effect, and a lane's bytes begin at index 2. -/
theorem hdrSkipDoesNothing : Obligations.HdrSkipDoesNothing :=
  ⟨fun _ _ _ => rfl, fun _ _ h => laneOf_congr_of_entries h⟩

/-- Settles O11: the masks and shifts of the unpack are the bit fields, and the ports are the same unpack of `pkt`. -/
theorem entUnpackSplitsTheEntry : Obligations.EntUnpackSplitsTheEntry := by
  refine ⟨fun b0 b1 s => ?wires, fun s k => ?ports⟩
  case wires => rw [exec_entUnpack, unpack_eq]
  case ports =>
    rw [outputs_entCh, outputs_entPos, exec_entUnpack]
    rfl

/-- Settles O13: DEMUX.DROP is the flag alone, and `ent_oob` is the bounds check of the id on `ent_ch`. -/
theorem demuxDropFlagsAndDiscards : Obligations.DemuxDropFlagsAndDiscards := by
  refine ⟨fun _ _ _ _ _ => rfl, fun s k hout => ?shown⟩
  rw [outputs_entCh] at hout
  rw [outputs_entOob, oob_iff]
  exact hout

end Sys2Proof.Proofs
end

section
/-! SUPPORT. The block before it has found a gap (60_exceptions.md R142): what a reset cycle, silence and bytes after
short gaps keep. -/

namespace Sys2Proof.Machine

@[simp] theorem outputs_aligned (s : State) : (outputs s).aligned = s.st.aligned := rfl

/-- The block under the parameters `c` in the aligner state `x`, with at most `g` ticks on the timer, no pulse and no
anomaly. -/
structure State.Quiet (c : Config) (x : St) (g : Nat) (s : State) : Prop where
  cfg : s.cfg = c
  st : s.st = x
  gap_le : s.gap ≤ g
  pktDone : s.pktDone = false
  anomOob : s.anomOob = false

theorem satInc_le_succ (c : Config) (g : Nat) : satInc c g ≤ g + 1 := by
  unfold satInc
  split <;> omega

/-- A reset cycle leaves the block quiet, whatever it held (70_reset_and_hazards.md R160). -/
theorem quiet_cycle_stRst (s : State) : (cycle s stRst).Quiet s.cfg .prime 0 := by
  rw [cycle, State.performed_of_rst (s := s.given [stRst]) rfl]
  exact ⟨rfl, rfl, Nat.le_refl 0, rfl, rfl⟩

namespace State.Quiet

variable {c : Config} {x : St} {g : Nat} {s : State}

/-- A cycle with no byte adds at most one tick (40_timing_sync.md R92). -/
theorem cycle_stIdle (h : s.Quiet c x g) : (cycle s stIdle).Quiet c x (g + 1) := by
  rw [cycle, State.performed_of_noByte (s := s.given [stIdle]) rfl rfl]
  exact ⟨h.cfg, h.st, (satInc_le_succ s.cfg s.gap).trans (Nat.succ_le_succ h.gap_le), rfl, h.anomOob⟩

theorem foldl_silence (h : s.Quiet c x g) (n : Nat) : ((silence n).foldl cycle s).Quiet c x (g + n) := by
  induction n generalizing g s with
  | zero => exact h
  | succ n ih =>
    rw [← Nat.succ_add_eq_add_succ]
    exact ih h.cycle_stIdle

/-- The first byte is discarded and starts the measurement of gaps (41_frame_aligner.md R101). -/
theorem cycle_stRx_of_prime (h : s.Quiet c .prime g) (d : Byte) : (cycle s (stRx d)).Quiet c .seek 1 := by
  rw [cycle, State.performed_of_prime (s := s.given [stRx d]) rfl rfl h.st]
  exact ⟨h.cfg, rfl, Nat.le_refl 1, rfl, h.anomOob⟩

/-- A byte after a gap not above the threshold leaves the block seeking (41_frame_aligner.md R102). -/
theorem cycle_stRx_of_seek (h : s.Quiet c .seek g) (hg : g ≤ c.tTicks) (d : Byte) :
    (cycle s (stRx d)).Quiet c .seek 1 := by
  have hshort : s.gap ≤ s.cfg.tTicks := h.gap_le.trans (h.cfg ▸ hg)
  rw [cycle, State.performed_of_seekSkip (s := s.given [stRx d]) rfl rfl h.st hshort]
  exact ⟨h.cfg, h.st, Nat.le_refl 1, rfl, h.anomOob⟩

/-- The first byte after reset, after any gap. -/
theorem foldl_byteAfter_of_prime (h : s.Quiet c .prime g) (n : Nat) (d : Byte) :
    ((byteAfter n d).foldl cycle s).Quiet c .seek 1 := by
  rw [byteAfter, List.foldl_append]
  exact (h.foldl_silence (n - 1)).cycle_stRx_of_prime d

/-- Bytes after short gaps: the timer, at 1 after a byte, reads at most the next byte's gap when that byte comes. -/
theorem foldl_bytesAfter_of_seek {l : List (Nat × Byte)} (hl : ShortGaps c l) (h : s.Quiet c .seek 1) :
    ((bytesAfter l).foldl cycle s).Quiet c .seek 1 := by
  induction l generalizing s with
  | nil => exact h
  | cons e l ih =>
    obtain ⟨⟨hpos, hshort⟩, hrest⟩ := List.forall_mem_cons.1 hl
    have hbefore : 1 + (e.1 - 1) ≤ c.tTicks := by omega
    rw [bytesAfter, List.flatMap_cons, List.foldl_append, byteAfter, List.foldl_append]
    exact ih hrest ((h.foldl_silence (e.1 - 1)).cycle_stRx_of_seek hbefore e.2)

/-- In `S_PRIME` and `S_SEEK` nothing is signalled (60_exceptions.md R142). -/
theorem notSignalled (h : s.Quiet c x g) (hx : x = .prime ∨ x = .seek) :
    s.st = x ∧ (outputs s).gapFound = false ∧ (outputs s).aligned = false ∧ s.pktDone = false ∧
      s.anomOob = false := by
  have hports : x.gapFound = false ∧ x.aligned = false := by rcases hx with rfl | rfl <;> decide
  rw [outputs_gapFound, outputs_aligned, h.st]
  exact ⟨rfl, hports.1, hports.2, h.pktDone, h.anomOob⟩

end State.Quiet
end Sys2Proof.Machine
end

section
/-! PROOFS. The statements about anomalies and what is not signalled (60_exceptions.md). -/

open Sys2Proof Sys2Proof.Machine

namespace Sys2Proof.Proofs

/-- Settles O41: no operation but RESET lowers the flag, and RESET leaves the reset state. -/
theorem anomalyIsSticky : Obligations.AnomalyIsSticky := by
  refine ⟨fun s t l hl hrun hflag => ?sticky, fun s t hstep hr => ?cleared⟩
  case sticky =>
    exact hrun.keeps (P := fun u => u.anomOob = true)
      (fun _ _ hi hu => State.performed_anomOob_iff.2 ⟨hi, .inl hu⟩) hl hflag
  case cleared =>
    obtain ⟨-, rfl⟩ := step_next hstep
    rw [State.performed_of_rst hr]
    exact ⟨rfl, rfl⟩

/-- Settles O48: the reset cycle leaves the block quiet in `S_PRIME`; silence keeps it so, the first byte takes it to
`S_SEEK`, and bytes after short gaps keep it there. -/
theorem neverConvergingIsNotSignalled : Obligations.NeverConvergingIsNotSignalled := by
  intro s n hlegal
  have hreset : (cycle (s.given []) stRst).Quiet s.cfg .prime 0 := quiet_cycle_stRst (s.given [])
  refine ⟨⟨_, (after_iff hlegal _).2 rfl, ?noByte⟩, fun g d l hl => ⟨_, (after_iff hlegal _).2 rfl, ?shortGaps⟩⟩
  case noByte => exact (hreset.foldl_silence n).notSignalled (.inl rfl)
  case shortGaps =>
    have hfirst := hreset.foldl_byteAfter_of_prime g d
    rw [List.foldl_append, List.foldl_cons, bytesAfter, List.flatMap_cons, List.foldl_append]
    exact ((hfirst.foldl_bytesAfter_of_seek hl).foldl_silence n).notSignalled (.inr rfl)

end Sys2Proof.Proofs
end

section
/-! PROOFS. The statement about the operation RESET (70_reset_and_hazards.md). -/

open Sys2Proof Sys2Proof.Machine

namespace Sys2Proof.Proofs

/-- RESET completes in every state and clears it (70_reset_and_hazards.md R160). -/
theorem exec_reset (x : BitVec 5) (s : State) : exec (.reset x) s = .next s.clear := rfl

/-- The cleared state element by element: it keeps of `s` only the parameters and the inputs to come
(70_reset_and_hazards.md R160). -/
theorem clear_eq (s : State) :
    s.clear =
      { cfg := s.cfg, st := .prime, cnt := 0, gap := 0, acc := Vector.replicate 15 0, pkt := Vector.replicate 16 0,
        pktDone := false, servo := List.replicate s.cfg.nTable 0, anomOob := false, lane := none, stim := s.stim } := rfl

/-- Settles O1: RESET answers the cleared state, and `rst = 1` is its row of the operation map. -/
theorem resetClearsEveryElement : Obligations.ResetClearsEveryElement := by
  refine ⟨fun x s => ?cleared, fun _ hr => picks_reset hr⟩
  case cleared => rw [exec_reset, clear_eq]

end Sys2Proof.Proofs
end

section
/-! SUPPORT. The encoding both ways (30_encoding.md R73 to R75): the nine rows of selectors, the fields of a word. -/

namespace Sys2Proof

/-! A selector made of a row's pattern and the bits the row leaves open decodes to that row. -/

theorem decodeSel_reset (x : BitVec 5) : decodeSel (1#1 ++ x) = .ok (.reset x) := by revert x; decide
theorem decodeSel_tick (x : BitVec 4) : decodeSel (0b00#2 ++ x) = .ok (.tick x) := by revert x; decide
theorem decodeSel_prime (x : BitVec 2) : decodeSel (0b0100#4 ++ x) = .ok (.prime x) := by revert x; decide
theorem decodeSel_seekSkip (x : BitVec 1) : decodeSel (0b01010#5 ++ x) = .ok (.seekSkip x) := by revert x; decide
theorem decodeSel_seekLock (x : BitVec 1) : decodeSel (0b01011#5 ++ x) = .ok (.seekLock x) := by revert x; decide
theorem decodeSel_flushSkip (x : BitVec 1) : decodeSel (0b0110#4 ++ x ++ 0#1) = .ok (.flushSkip x) := by
  revert x; decide
theorem decodeSel_flushLast (x : BitVec 1) : decodeSel (0b0110#4 ++ x ++ 1#1) = .ok (.flushLast x) := by
  revert x; decide
theorem decodeSel_captStore (x : BitVec 1) : decodeSel (0b0111#4 ++ x ++ 0#1) = .ok (.captStore x) := by
  revert x; decide
theorem decodeSel_captLast (x : BitVec 1) : decodeSel (0b0111#4 ++ x ++ 1#1) = .ok (.captLast x) := by
  revert x; decide

/-- What a selector decodes to is an operation whose code is the selector's byte. -/
theorem decodeSel_sound :
    ∀ w : Sel, ((decodeSel w).toOption.all fun i => decide (i.slot = .sel ∧ encode i = [selByte w])) = true := by
  decide

theorem encode_of_decodeSel {w : Sel} {i : Instr} (h : decodeSel w = .ok i) :
    i.slot = .sel ∧ encode i = [selByte w] := by
  have hw := decodeSel_sound w
  rw [h] at hw
  exact of_decide_eq_true hw

/-- An operation is well formed under every table capacity (30_encoding.md R75). -/
theorem Instr.wf_of_slot_sel (n : Nat) {i : Instr} (h : i.slot = .sel) : i.wf n = true := by
  cases i
  case hdrSkip | entUnpack | demuxWrite | demuxDrop => cases h
  all_goals rfl

/-- A byte with bits 7 and 6 clear holds the selector in its other bits (30_encoding.md R74). -/
theorem selByte_of_high_clear (b : Byte) (h : b.extractLsb' 6 2 = 0) : selByte (b.extractLsb' 0 6) = b := by
  revert b; decide

/-! An entry word is its two bytes, and it is its three fields. -/

theorem append_fields (w : BitVec 16) : entFlag w ++ entChan w ++ entPos w = w := by
  rw [entFlag, entChan, entPos,
    BitVec.extractLsb'_append_extractLsb'_eq_extractLsb' (start₁ := 11) (len₁ := 4) (len₂ := 1) rfl,
    BitVec.extractLsb'_append_extractLsb'_eq_extractLsb' (start₁ := 0) (len₁ := 11) (len₂ := 5) rfl]
  exact BitVec.extractLsb'_eq_self

theorem entFlag_fields (f : BitVec 1) (c : Chan) (p : Pos) : entFlag (f ++ c ++ p) = f := by
  rw [entFlag, BitVec.extractLsb'_append_eq_of_le (by decide), BitVec.extractLsb'_append_eq_of_le (by decide)]
  exact BitVec.extractLsb'_eq_self

theorem entChan_fields (f : BitVec 1) (c : Chan) (p : Pos) : entChan (f ++ c ++ p) = c := by
  rw [entChan, BitVec.extractLsb'_append_eq_of_le (by decide)]
  exact BitVec.extractLsb'_append_eq_right

theorem entPos_fields (f : BitVec 1) (c : Chan) (p : Pos) : entPos (f ++ c ++ p) = p :=
  BitVec.extractLsb'_append_eq_right

theorem decode_demux_wordBytes (n : Nat) (w : BitVec 16) :
    decode n .demux (wordBytes w) = .ok (decodeDemux n w) := by
  have hbytes : w.extractLsb' 8 8 ++ w.extractLsb' 0 8 = w :=
    (BitVec.extractLsb'_append_extractLsb'_eq_extractLsb' (start₁ := 0) (len₁ := 8) (len₂ := 8) rfl).trans
      BitVec.extractLsb'_eq_self
  simp only [wordBytes, decode, hbytes]

theorem wordBytes_append (b0 b1 : Byte) : wordBytes (b0 ++ b1) = [b0, b1] := by
  rw [wordBytes, BitVec.extractLsb'_append_eq_right, BitVec.extractLsb'_append_eq_of_le (Nat.le_refl 8)]
  exact congrArg (fun b => [b, b1]) BitVec.extractLsb'_eq_self

/-- The demultiplexer operation of a word is the well-formed one, and its code is the word (30_encoding.md R77). -/
theorem decodeDemux_sound (n : Nat) (w : BitVec 16) :
    (decodeDemux n w).wf n = true ∧ (decodeDemux n w).slot = .demux ∧ encode (decodeDemux n w) = wordBytes w := by
  have hword : wordBytes (entFlag w ++ entChan w ++ entPos w) = wordBytes w := congrArg wordBytes (append_fields w)
  unfold decodeDemux
  split
  case isTrue hc => exact ⟨decide_eq_true hc, rfl, hword⟩
  case isFalse hc => exact ⟨decide_eq_true (Nat.le_of_not_lt hc), rfl, hword⟩

end Sys2Proof
end

section
/-! PROOFS. The statements about decoding and encoding (30_encoding.md sections 1 and 2). -/

open Sys2Proof Sys2Proof.Machine

namespace Sys2Proof.Proofs

/-- Settles O19: an operation's selector stands in its row, and a word's fields are those it was made of. -/
theorem decodeOfEncode : Obligations.DecodeOfEncode := by
  intro n i hwf
  cases i
  case reset x => exact (decode_selByte n _).trans (decodeSel_reset x)
  case tick x => exact (decode_selByte n _).trans (decodeSel_tick x)
  case prime x => exact (decode_selByte n _).trans (decodeSel_prime x)
  case seekSkip x => exact (decode_selByte n _).trans (decodeSel_seekSkip x)
  case seekLock x => exact (decode_selByte n _).trans (decodeSel_seekLock x)
  case flushSkip x => exact (decode_selByte n _).trans (decodeSel_flushSkip x)
  case flushLast x => exact (decode_selByte n _).trans (decodeSel_flushLast x)
  case captStore x => exact (decode_selByte n _).trans (decodeSel_captStore x)
  case captLast x => exact (decode_selByte n _).trans (decodeSel_captLast x)
  case hdrSkip | entUnpack => rfl
  case demuxWrite f c p =>
    have hc : c.toNat < n := of_decide_eq_true hwf
    exact (decode_demux_wordBytes n _).trans
      (by rw [decodeDemux, entFlag_fields, entChan_fields, entPos_fields, if_pos hc])
  case demuxDrop f c p =>
    have hc : n ≤ c.toNat := of_decide_eq_true hwf
    exact (decode_demux_wordBytes n _).trans
      (by rw [decodeDemux, entFlag_fields, entChan_fields, entPos_fields, if_neg (Nat.not_lt.2 hc)])

/-- Settles O20, slot by slot: the selectors are the 64 of the operation map, the other words keep every bit. -/
theorem encodeOfDecode : Obligations.EncodeOfDecode := by
  intro n sl bs i h
  unfold decode at h
  split at h
  next b =>
    split at h
    case isTrue hb =>
      obtain ⟨hslot, hcode⟩ := encode_of_decodeSel h
      exact ⟨i.wf_of_slot_sel n hslot, hslot, hcode.trans (congrArg (fun b => [b]) (selByte_of_high_clear b hb))⟩
    case isFalse => cases h
  next => cases h; exact ⟨rfl, rfl, rfl⟩
  next => cases h; exact ⟨rfl, rfl, rfl⟩
  next b0 b1 =>
    cases h
    obtain ⟨hwf, hslot, hcode⟩ := decodeDemux_sound n (b0 ++ b1)
    exact ⟨hwf, hslot, hcode.trans (wordBytes_append b0 b1)⟩
  all_goals cases h

/-- Settles O14: the thirteen words, evaluated. -/
theorem writtenWordsDecode : Obligations.WrittenWordsDecode := by
  unfold Obligations.WrittenWordsDecode
  decide

/-- Settles O15: the 64 selectors, evaluated. -/
theorem everySelectorHasOneRow : Obligations.EverySelectorHasOneRow := by
  unfold Obligations.EverySelectorHasOneRow
  decide

end Sys2Proof.Proofs
end

section
/-! SUPPORT. The event level and one cycle (41_frame_aligner.md R109), and the control part of the state, which no data
reaches (20_memory.md section 6). -/

namespace Sys2Proof.Machine

/-! One equation per case of `stepEv` (41_frame_aligner.md R109), then what an event can change, and that its control
part does not read the data. -/

section Event

variable {n : Nat} {S : EvState} {long : Bool} {d : Byte}

theorem stepEv_prime (hst : S.st = .prime) : stepEv n S long d = { S with st := .seek } := by
  simp [stepEv, hst]

theorem stepEv_seekSkip (hst : S.st = .seek) (hl : long = false) : stepEv n S long d = S := by
  simp [stepEv, hst, hl]

theorem stepEv_seekLock (hst : S.st = .seek) (hl : long = true) :
    stepEv n S long d = { S with st := .flush, cnt := 1 } := by
  simp [stepEv, hst, hl]

theorem stepEv_flushSkip (hst : S.st = .flush) (hc : S.cnt ≠ 15) :
    stepEv n S long d = { S with st := .flush, cnt := S.cnt + 1 } := by
  simp [stepEv, hst, show S.cnt ≠ 15#4 from hc]

theorem stepEv_flushLast (hst : S.st = .flush) (hc : S.cnt = 15) :
    stepEv n S long d = { S with st := .locked, cnt := 0 } := by
  simp [stepEv, hst, hc]

theorem stepEv_captStore (hst : S.st = .locked) (hc : S.cnt ≠ 15) :
    stepEv n S long d =
      { S with st := .locked, acc := S.acc.setIfInBounds S.cnt.toNat d, cnt := S.cnt + 1 } := by
  simp [stepEv, hst, show S.cnt ≠ 15#4 from hc]

theorem stepEv_captLast (hst : S.st = .locked) (hc : S.cnt = 15) :
    stepEv n S long d =
      { S with st := .locked, pkt := S.acc.push d, cnt := 0
               servo := (decode7 n (S.acc.push d) S.servo S.anomOob).1
               anomOob := (decode7 n (S.acc.push d) S.servo S.anomOob).2 } := by
  simp [stepEv, hst, hc]

/-- An event moves `st` in PRIME, SEEK.LOCK and FLUSH.LAST only. -/
theorem stepEv_st_ne (h : (stepEv n S long d).st ≠ S.st) :
    S.st = .prime ∨ (S.st = .seek ∧ long = true) ∨ (S.st = .flush ∧ S.cnt = 15) := by
  revert h
  fun_cases stepEv n S long d
  case case1 hst => exact fun _ => .inl hst
  case case2 hst hlong => exact fun _ => .inr (.inl ⟨hst, hlong⟩)
  case case3 => exact fun h => absurd rfl h
  case case4 hst hcnt => exact fun _ => .inr (.inr ⟨hst, hcnt⟩)
  case case5 | case6 | case7 => exact fun h => absurd rfl h

/-- An event changes `cnt` in SEEK.LOCK, FLUSH and CAPT only. -/
theorem stepEv_cnt_ne (h : (stepEv n S long d).cnt ≠ S.cnt) :
    (S.st = .seek ∧ long = true) ∨ S.st = .flush ∨ S.st = .locked := by
  revert h
  fun_cases stepEv n S long d
  case case1 => exact fun h => absurd rfl h
  case case2 hst hlong => exact fun _ => .inl ⟨hst, hlong⟩
  case case3 => exact fun h => absurd rfl h
  case case4 hst _ | case5 hst _ => exact fun _ => .inr (.inl hst)
  case case6 hst _ => exact fun _ => .inr (.inr hst)
  case case7 hst _ _ => exact fun _ => .inr (.inr hst)

/-- An event changes `acc` in CAPT.STORE only. -/
theorem stepEv_acc_ne (h : (stepEv n S long d).acc ≠ S.acc) : S.st = .locked ∧ S.cnt ≠ 15 := by
  revert h
  fun_cases stepEv n S long d
  case case6 hst hcnt => exact fun _ => ⟨hst, hcnt⟩
  all_goals exact fun h => absurd rfl h

/-- `st` and `cnt` after an event are those of any other event as long, whatever the bytes and the arrays are. -/
theorem stepEv_control {n' : Nat} {S' : EvState} {d' : Byte} (hst : S.st = S'.st) (hcnt : S.cnt = S'.cnt) :
    (stepEv n S long d).st = (stepEv n' S' long d').st ∧ (stepEv n S long d).cnt = (stepEv n' S' long d').cnt := by
  cases h : S.st
  case prime =>
    rw [stepEv_prime h, stepEv_prime (hst ▸ h)]
    exact ⟨rfl, hcnt⟩
  case seek =>
    cases hl : long
    case false =>
      rw [stepEv_seekSkip h rfl, stepEv_seekSkip (hst ▸ h) rfl]
      exact ⟨hst, hcnt⟩
    case true =>
      rw [stepEv_seekLock h rfl, stepEv_seekLock (hst ▸ h) rfl]
      exact ⟨rfl, rfl⟩
  case flush =>
    by_cases hc : S.cnt = 15
    · rw [stepEv_flushLast h hc, stepEv_flushLast (hst ▸ h) (hcnt ▸ hc)]
      exact ⟨rfl, rfl⟩
    · rw [stepEv_flushSkip h hc, stepEv_flushSkip (hst ▸ h) (hcnt ▸ hc)]
      exact ⟨rfl, congrArg (· + 1) hcnt⟩
  case locked =>
    by_cases hc : S.cnt = 15
    · rw [stepEv_captLast h hc, stepEv_captLast (hst ▸ h) (hcnt ▸ hc)]
      exact ⟨rfl, rfl⟩
    · rw [stepEv_captStore h hc, stepEv_captStore (hst ▸ h) (hcnt ▸ hc)]
      exact ⟨rfl, congrArg (· + 1) hcnt⟩

end Event

variable {s s' : State}

/-- An operation other than RESET is one event if a byte came, else none. -/
theorem State.performed_ev (hr : s.inp.rst = false) :
    s.performed.ev =
      if s.inp.rxValid = true then stepEv s.cfg.nTable s.ev (decide (s.cfg.tTicks < s.gap)) s.inp.rxData
      else s.ev := by
  cases hv : s.inp.rxValid
  case false => rw [State.performed_of_noByte hr hv]; rfl
  case true =>
    rw [if_pos rfl]
    cases hst : s.st
    case prime => rw [State.performed_of_prime hr hv hst, stepEv_prime (S := s.ev) hst]; rfl
    case seek =>
      rcases Nat.lt_or_ge s.cfg.tTicks s.gap with hg | hg
      · rw [State.performed_of_seekLock hr hv hst hg, stepEv_seekLock (S := s.ev) hst (decide_eq_true hg)]; rfl
      · rw [State.performed_of_seekSkip hr hv hst hg,
          stepEv_seekSkip (S := s.ev) hst (decide_eq_false (Nat.not_lt.2 hg))]; rfl
    case flush =>
      by_cases hc : s.cnt = 15
      · rw [State.performed_of_flushLast hr hv hst hc, stepEv_flushLast (S := s.ev) hst hc]; rfl
      · rw [State.performed_of_flushSkip hr hv hst hc, stepEv_flushSkip (S := s.ev) hst hc]; rfl
    case locked =>
      by_cases hc : s.cnt = 15
      · rw [State.performed_of_completesPacket ⟨hr, hv, hst, hc⟩, stepEv_captLast (S := s.ev) hst hc, ← hst]; rfl
      · rw [State.performed_of_captStore hr hv hst hc, stepEv_captStore (S := s.ev) hst hc]; rfl

/-- An element of the event level that an operation other than RESET changes is one the byte event changes. -/
theorem State.rxValid_of_performed_ev_ne (hr : s.inp.rst = false) (h : s.performed.ev ≠ s.ev) :
    s.inp.rxValid = true ∧
      s.performed.ev = stepEv s.cfg.nTable s.ev (decide (s.cfg.tTicks < s.gap)) s.inp.rxData := by
  have hev := State.performed_ev hr
  cases hv : s.inp.rxValid
  case false => exact absurd (hev.trans (by rw [hv]; rfl)) h
  case true => exact ⟨rfl, hev.trans (if_pos hv)⟩

/-- The two states agree in the control part: the parameters, `st`, `cnt`, `gap`, `pkt_done`. -/
structure State.SameControl (s s' : State) : Prop where
  cfg : s.cfg = s'.cfg
  st : s.st = s'.st
  cnt : s.cnt = s'.cnt
  gap : s.gap = s'.gap
  pktDone : s.pktDone = s'.pktDone

/-- Whether a cycle completes a packet is a matter of control. -/
theorem State.SameControl.completesPacket_iff (h : s.SameControl s') (hr : s.inp.rst = s'.inp.rst)
    (hv : s.inp.rxValid = s'.inp.rxValid) : s.CompletesPacket ↔ s'.CompletesPacket := by
  rw [State.CompletesPacket, State.CompletesPacket, hr, hv, h.st, h.cnt]

/-- An operation other than RESET moves the aligners of two states that agree in the control alike. -/
theorem State.SameControl.performed_aligner (h : s.SameControl s') (hr : s.inp.rst = false)
    (hr' : s'.inp.rst = false) (hv : s.inp.rxValid = s'.inp.rxValid) :
    s.performed.ev.st = s'.performed.ev.st ∧ s.performed.ev.cnt = s'.performed.ev.cnt := by
  rw [State.performed_ev hr, State.performed_ev hr', ← hv, ← h.cfg, ← h.gap]
  split
  case isTrue => exact stepEv_control h.st h.cnt
  case isFalse => exact ⟨h.st, h.cnt⟩

/-- An operation keeps two states in agreement on the control (20_memory.md section 6). -/
theorem State.SameControl.performed (h : s.SameControl s') (hr : s.inp.rst = s'.inp.rst)
    (hv : s.inp.rxValid = s'.inp.rxValid) : s.performed.SameControl s'.performed := by
  have haligner : s.performed.st = s'.performed.st ∧ s.performed.cnt = s'.performed.cnt := by
    cases hr' : s'.inp.rst
    case true =>
      rw [State.performed_of_rst hr', State.performed_of_rst (hr.trans hr')]
      exact ⟨rfl, rfl⟩
    case false => exact h.performed_aligner (hr.trans hr') hr' hv
  refine ⟨?cfg, haligner.1, haligner.2, ?gap, ?pktDone⟩
  case cfg => rw [State.performed_cfg, State.performed_cfg, h.cfg]
  case gap => rw [State.performed_gap, State.performed_gap, hr, hv, h.cfg, h.gap]
  case pktDone =>
    rw [Bool.eq_iff_iff, State.performed_pktDone_iff, State.performed_pktDone_iff]
    exact h.completesPacket_iff hr hv

/-- The clock edge touches no control. -/
theorem State.SameControl.edge (h : s.SameControl s') : s.edge.SameControl s'.edge :=
  ⟨h.cfg, h.st, h.cnt, h.gap, h.pktDone⟩

/-- A state has a next state exactly if its configuration is legal. -/
theorem exists_step_iff (s : State) : (∃ t, step s = .next t) ↔ s.cfg.legal = true :=
  ⟨fun ⟨_, h⟩ => (step_next h).1, fun h => ⟨_, step_eq h⟩⟩

end Sys2Proof.Machine
end
section
/-! SUPPORT. What a cycle reads and writes (10_state.md section 6): `rx_data` is read in `S_LOCKED` only, and each
element is written in the cycles of the access matrix. -/

namespace Sys2Proof.Machine

variable {s : State}

/-- Two cycles agree where their operations agree up to the inputs and the lane wires. -/
theorem cycle_congr_of_performed {i j : Input} {u v : State} (hi : (s.given [i]).performed = u)
    (hj : (s.given [j]).performed = v) (h : u.edge = v.edge) : cycle s i = cycle s j := by
  rw [cycle, cycle, hi, hj, h]

/-- In a cycle with reset, without byte, or outside `S_LOCKED` the value on `rx_data` reaches nothing (10_state.md
R39). -/
theorem cycle_rxData {i : Input} (d : Byte) (h : i.rst = true ∨ i.rxValid = false ∨ s.st ≠ .locked) :
    cycle s { i with rxData := d } = cycle s i := by
  obtain ⟨r, v, e⟩ := i
  cases r
  case true => exact cycle_congr_of_performed (State.performed_of_rst rfl) (State.performed_of_rst rfl) rfl
  case false =>
    cases v
    case false =>
      exact cycle_congr_of_performed (State.performed_of_noByte rfl rfl) (State.performed_of_noByte rfl rfl) rfl
    case true =>
      cases hst : s.st
      case prime =>
        exact cycle_congr_of_performed (State.performed_of_prime rfl rfl hst) (State.performed_of_prime rfl rfl hst) rfl
      case seek =>
        rcases Nat.lt_or_ge s.cfg.tTicks s.gap with hg | hg
        · exact cycle_congr_of_performed (State.performed_of_seekLock rfl rfl hst hg)
            (State.performed_of_seekLock rfl rfl hst hg) rfl
        · exact cycle_congr_of_performed (State.performed_of_seekSkip rfl rfl hst hg)
            (State.performed_of_seekSkip rfl rfl hst hg) rfl
      case flush =>
        by_cases hc : s.cnt = 15
        · exact cycle_congr_of_performed (State.performed_of_flushLast rfl rfl hst hc)
            (State.performed_of_flushLast rfl rfl hst hc) rfl
        · exact cycle_congr_of_performed (State.performed_of_flushSkip rfl rfl hst hc)
            (State.performed_of_flushSkip rfl rfl hst hc) rfl
      case locked => exact absurd hst (by simpa using h)

theorem step_given_cons (h : s.cfg.legal = true) (i : Input) (l : List Input) :
    step (s.given (i :: l)) = .next ((cycle s i).given l) := by
  rw [step_eq (s := s.given (i :: l)) h, State.performed_given]

theorem step_given_illegal (h : s.cfg.legal = false) (l : List Input) :
    step (s.given l) = .refused .illegalConfig := step_illegal (s := s.given l) h

/-- Of the moves from one state to the next, SEEK.LOCK's alone raises `st[1]` (10_state.md R21). -/
theorem St.eq_seek_of_move_rise :
    ∀ p ∈ St.moves, p.1.gapFound = false → p.2.gapFound = true → p.1 = .seek := by decide

/-- No move lowers `st[1]`. -/
theorem St.gapFound_of_move : ∀ p ∈ St.moves, p.1.gapFound = true → p.2.gapFound = true := by decide

variable (hr : s.inp.rst = false)
include hr

/-- `st` is written in PRIME, SEEK.LOCK and FLUSH.LAST cycles. -/
theorem State.performed_st_ne (h : s.performed.st ≠ s.st) :
    s.inp.rxValid = true ∧
      (s.st = .prime ∨ (s.st = .seek ∧ s.cfg.tTicks < s.gap) ∨ (s.st = .flush ∧ s.cnt = 15)) := by
  obtain ⟨hv, hev⟩ := State.rxValid_of_performed_ev_ne hr fun he => h (congrArg EvState.st he)
  have hst := stepEv_st_ne fun he => h ((congrArg EvState.st hev).trans he)
  rw [decide_eq_true_iff] at hst
  exact ⟨hv, hst⟩

/-- `cnt` is written in SEEK.LOCK, FLUSH and CAPT cycles. -/
theorem State.performed_cnt_ne (h : s.performed.cnt ≠ s.cnt) :
    s.inp.rxValid = true ∧ ((s.st = .seek ∧ s.cfg.tTicks < s.gap) ∨ s.st = .flush ∨ s.st = .locked) := by
  obtain ⟨hv, hev⟩ := State.rxValid_of_performed_ev_ne hr fun he => h (congrArg EvState.cnt he)
  have hst := stepEv_cnt_ne fun he => h ((congrArg EvState.cnt hev).trans he)
  rw [decide_eq_true_iff] at hst
  exact ⟨hv, hst⟩

/-- `acc` is written in CAPT.STORE cycles. -/
theorem State.performed_acc_ne (h : s.performed.acc ≠ s.acc) :
    s.inp.rxValid = true ∧ s.st = .locked ∧ s.cnt ≠ 15 := by
  obtain ⟨hv, hev⟩ := State.rxValid_of_performed_ev_ne hr fun he => h (congrArg EvState.acc he)
  exact ⟨hv, stepEv_acc_ne fun he => h ((congrArg EvState.acc hev).trans he)⟩

/-- The packet, the table, the flag and a rise of the pulse are written in CAPT.LAST cycles. -/
theorem State.completesPacket_of_committed
    (h : s.performed.pkt ≠ s.pkt ∨ s.performed.servo ≠ s.servo ∨ s.performed.anomOob ≠ s.anomOob ∨
      s.performed.pktDone = true) : s.CompletesPacket := by
  by_contra hn
  obtain ⟨hdone, hpkt, hservo, hanom⟩ := State.performed_of_not_completesPacket hr hn
  simp [hdone, hpkt, hservo, hanom] at h

end Sys2Proof.Machine
end

section
/-! PROOFS. The statements about one step: which one it is, what it reads and writes, and the event level. -/

open Sys2Proof Sys2Proof.Machine

namespace Sys2Proof.Proofs

/-- Settles O54: a next state exists by the configuration alone, and the operation of the cycle, the timer and the pulse
are functions of the control part. -/
theorem everyStepKeepsControlAgreement : Obligations.EveryStepKeepsControlAgreement := by
  intro s s' hcfg hst hcnt hgap hdone hr hv
  have hsame : s.SameControl s' := ⟨hcfg, hst, hcnt, hgap, hdone⟩
  refine ⟨by rw [exists_step_iff, exists_step_iff, hcfg], fun t t' ht ht' => ?next⟩
  case next =>
    obtain ⟨-, rfl⟩ := step_next ht
    obtain ⟨-, rfl⟩ := step_next ht'
    have h := (hsame.performed hr hv).edge
    exact ⟨h.cfg, h.st, h.cnt, h.gap, h.pktDone⟩

/-- Settles O53: the clock edge touches nothing the event level keeps. -/
theorem eventLevelOfOneCycle : Obligations.EventLevelOfOneCycle := by
  intro s t hstep hr
  obtain ⟨-, rfl⟩ := step_next hstep
  exact State.performed_ev hr

/-- Settles O18: every operation has a next state, so the configuration alone decides. -/
theorem stepIsTotal : Obligations.StepIsTotal := fun s =>
  ⟨fun h => ⟨_, step_eq ((s.cfg.legal_iff).2 h)⟩,
    fun h => step_illegal (Bool.eq_false_iff.2 fun hl => h ((s.cfg.legal_iff).1 hl))⟩

/-- Settles O31: under a legal configuration the two cycles are one, under any other both are refused. -/
theorem dataIsReadOnlyWhenValid : Obligations.DataIsReadOnlyWhenValid := by
  intro s i rest d h
  cases hc : s.cfg.legal
  case true => exact (step_given_cons hc _ rest).trans (by rw [cycle_rxData d h, ← step_given_cons hc]; rfl)
  case false => exact (step_given_illegal hc _).trans (step_given_illegal hc _).symm

/-- Settles O33, element by element. -/
theorem accessMatrixWrites : Obligations.AccessMatrixWrites := by
  intro s t hstep hr
  obtain ⟨-, rfl⟩ := step_next hstep
  refine ⟨State.performed_cfg s, congrArg List.tail (State.performed_stim s), State.performed_st_ne hr,
    State.performed_cnt_ne hr, State.performed_acc_ne hr, fun h => ?committed⟩
  case committed => exact (State.completesPacket_of_committed hr h).2

/-- Settles O37: `st` moves to the next of its four states only, and of these moves SEEK.LOCK's alone raises `st[1]`. -/
theorem gapFoundChangesOnlyAtTheLock : Obligations.GapFoundChangesOnlyAtTheLock := by
  intro s t hstep
  obtain ⟨-, rfl⟩ := step_next hstep
  refine ⟨fun hs ht => ?rise, fun hs ht => ?fall⟩
  case rise =>
    have hr : s.inp.rst = false := Bool.eq_false_iff.2 fun hr => by
      rw [State.edge_st, State.performed_of_rst hr, State.clear_st, St.gapFound_prime] at ht
      cases ht
    rcases State.performed_st hr with hkeep | hmove
    · rw [State.edge_st, hkeep, hs] at ht
      cases ht
    · have hseek : s.st = .seek := St.eq_seek_of_move_rise _ hmove hs ht
      have hne : s.performed.st ≠ s.st := fun he => by
        rw [State.edge_st, he, hs] at ht
        cases ht
      obtain ⟨hv, hcase⟩ := State.performed_st_ne hr hne
      exact ⟨hr, hv, hseek, by simpa [hseek] using hcase⟩
  case fall =>
    by_contra hr
    rw [Bool.not_eq_true] at hr
    have hkept : s.performed.st.gapFound = true := by
      rcases State.performed_st hr with hkeep | hmove
      · rw [hkeep, hs]
      · exact St.gapFound_of_move _ hmove hs
    exact Bool.false_ne_true (ht.symm.trans hkept)

/-- Settles O17: the operation the selector decodes to is the one the step performs. -/
theorem stepRunsTheDecodedOperation : Obligations.StepRunsTheDecodedOperation := by
  intro s i hc hpick
  have hfetch : s.fetch = .ok i := hpick
  rw [step, State.admitted, if_pos hc, hfetch]
  rfl

/-- Settles O30: RESET comes before every other row of the operation map. -/
theorem resetOverridesInputs : Obligations.ResetOverridesInputs := by
  intro s hc hr
  rw [step_eq hc, State.performed_of_rst hr]
  rfl

/-- Settles O52: the floor of a quotient. -/
theorem secondsToTicks : Obligations.SecondsToTicks := fun _ _ _ _ hden => (Nat.div_lt_iff_lt_mul hden).symm

end Sys2Proof.Proofs
end

section
/-! SUPPORT. The closed form of DECODE7 (42_channel_decoder.md section 4): an entry of the table holds the position of
the last lane that names it; and the encoder of entries undone by the unpacker. -/

namespace Sys2Proof.Machine

variable {n i : Nat} {P : Vector Byte 16}

/-- The lane names entry `i` of a table of `n` entries. -/
def Lane.names (n i : Nat) (L : Lane) : Bool := decide (L.ch.toNat = i ∧ i < n)

theorem Lane.names_iff (L : Lane) : L.names n i = true ↔ L.ch.toNat = i ∧ i < n := decide_eq_true_iff

/-- The last of the lanes `ks` that names entry `i` of a table of `n` entries. -/
def lastLane (n : Nat) (P : Vector Byte 16) (ks : List (Fin 7)) (i : Nat) : Option (Fin 7) :=
  ks.reverse.find? fun k => (laneOf P k).names n i

theorem lastLane_append_singleton (ks : List (Fin 7)) (k : Fin 7) :
    lastLane n P (ks ++ [k]) i = if (laneOf P k).names n i then some k else lastLane n P ks i := by
  rw [lastLane, List.reverse_append, List.reverse_singleton, List.singleton_append, List.find?_cons, ← lastLane]
  cases (laneOf P k).names n i <;> rfl

/-- A lane writes the entry it names, and no other. -/
theorem getElem?_demuxPair (L : Lane) (r : List Pos × Bool) :
    (demuxPair n L r).1[i]? = if L.names n i then r.1[i]?.map (fun _ => L.pos) else r.1[i]? := by
  simp only [demuxPair, Lane.names_iff]
  rcases Nat.lt_or_ge L.ch.toNat n with hin | hout
  · rw [if_neg (Nat.not_le.2 hin)]
    by_cases hid : L.ch.toNat = i
    · rw [if_pos ⟨hid, hid ▸ hin⟩, hid]
      exact List.getElem?_set_self'
    · rw [if_neg fun h => hid h.1]
      exact List.getElem?_set_ne hid
  · rw [if_pos hout, if_neg fun ⟨hid, hi⟩ => Nat.not_lt.2 hout (hid ▸ hi)]

/-- The last lane that names an entry wins (42_channel_decoder.md section 4). -/
theorem getElem?_foldl_demuxPair (ks : List (Fin 7)) (r : List Pos × Bool) :
    (ks.foldl (fun r k => demuxPair n (laneOf P k) r) r).1[i]? =
      (lastLane n P ks i).elim r.1[i]? fun k => r.1[i]?.map fun _ => (laneOf P k).pos := by
  induction ks using List.reverseRecOn with
  | nil => rfl
  | append_singleton ks k ih =>
    rw [List.foldl_append, List.foldl_cons, List.foldl_nil, getElem?_demuxPair, ih, lastLane_append_singleton]
    cases (laneOf P k).names n i
    case false => rfl
    case true => cases lastLane n P ks i <;> cases r.1[i]? <;> rfl

theorem getElem?_decode7 (servo : List Pos) (anom : Bool) :
    (decode7 n P servo anom).1[i]? =
      (lastLane n P laneOrder i).elim servo[i]? fun k => servo[i]?.map fun _ => (laneOf P k).pos := by
  rw [decode7_eq_foldl_demuxPair, getElem?_foldl_demuxPair]

@[simp] theorem length_decode7 (servo : List Pos) (anom : Bool) :
    (decode7 n P servo anom).1.length = servo.length := by
  rw [decode7_eq_foldl_demuxPair, foldl_demuxPair_length]

/-- The lanes after lane `k` stand after it in the order. -/
theorem laneOrder_split : ∀ k : Fin 7, ∃ after before,
    laneOrder.reverse = after ++ k :: before ∧ ∀ j ∈ after, k < j := by
  intro k
  refine ⟨laneOrder.reverse.take (6 - k.val), laneOrder.reverse.drop (7 - k.val), ?_⟩
  revert k
  decide

/-- A lane that names an entry, no later one doing so, is the last. -/
theorem lastLane_eq_some {k : Fin 7} (hi : i < n) (hk : (laneOf P k).ch.toNat = i)
    (hlater : ∀ j : Fin 7, k < j → (laneOf P j).ch.toNat ≠ i) : lastLane n P laneOrder i = some k := by
  obtain ⟨after, before, horder, hafter⟩ := laneOrder_split k
  refine List.find?_eq_some_iff_append.2 ⟨Lane.names_iff _ |>.2 ⟨hk, hi⟩, after, before, horder, fun j hj => ?_⟩
  rw [Bool.not_eq_true', Bool.eq_false_iff, Ne, Lane.names_iff]
  exact fun h => hlater j (hafter j hj) h.1

/-- With no lane that names the entry there is no last one. -/
theorem lastLane_eq_none (hnone : ∀ k : Fin 7, (laneOf P k).ch.toNat ≠ i) : lastLane n P laneOrder i = none :=
  List.find?_eq_none.2 fun k _ h => hnone k ((Lane.names_iff _).1 h).1

/-- Entries from 16 on are named by no lane: an id has four bits (10_state.md R31). -/
theorem getElem?_decode7_of_ge_16 (hi : 16 ≤ i) (servo : List Pos) (anom : Bool) :
    (decode7 n P servo anom).1[i]? = servo[i]? := by
  have hnone : ∀ k : Fin 7, (laneOf P k).ch.toNat ≠ i := fun k => by
    have := (laneOf P k).ch.isLt
    omega
  rw [getElem?_decode7, lastLane_eq_none hnone]
  rfl

/-- DECODE7 of the same packet a second time changes nothing (42_channel_decoder.md section 5). -/
theorem decode7_again {servo : List Pos} {anom : Bool} {r : List Pos × Bool} (hr : r = decode7 n P servo anom) :
    decode7 n P r.1 r.2 = r := by
  subst hr
  apply Prod.ext
  · apply List.ext_getElem?
    intro i
    rw [getElem?_decode7, getElem?_decode7]
    cases lastLane n P laneOrder i <;> cases servo[i]? <;> rfl
  · rw [Bool.eq_iff_iff, decode7_flag, decode7_flag, or_assoc, or_self]

/-! The encoder (30_encoding.md R82): each field of the two bytes, read back. -/

variable (f : BitVec 1) (c : Chan) (p : Pos)

theorem extractLsb'_encodeEntry_chan : (encodeEntry f c p).1.extractLsb' 3 4 = c := by
  apply BitVec.eq_of_getLsbD_eq
  intro j hj
  simp only [encodeEntry]
  interval_cases j <;> simp

theorem extractLsb'_encodeEntry_high : (encodeEntry f c p).1.extractLsb' 0 3 = p.extractLsb' 8 3 := by
  apply BitVec.eq_of_getLsbD_eq
  intro j hj
  simp only [encodeEntry]
  interval_cases j <;> simp

theorem encodeEntry_low : (encodeEntry f c p).2 = p.extractLsb' 0 8 := by
  apply BitVec.eq_of_getLsbD_eq
  intro j hj
  simp only [encodeEntry]
  interval_cases j <;> simp

theorem encodeEntry_pos : (encodeEntry f c p).1.extractLsb' 0 3 ++ (encodeEntry f c p).2 = p := by
  rw [extractLsb'_encodeEntry_high, encodeEntry_low,
    BitVec.extractLsb'_append_extractLsb'_eq_extractLsb' (start₁ := 0) (len₁ := 8) (len₂ := 3) rfl]
  exact BitVec.extractLsb'_eq_self

/-- An encoded entry unpacks to the channel and the position it was made of. -/
theorem unpack_encodeEntry :
    unpack (encodeEntry f c p).1 (encodeEntry f c p).2 = { ch := c, pos := p } := by
  rw [unpack_eq, extractLsb'_encodeEntry_chan, encodeEntry_pos]

end Sys2Proof.Machine
end

section
/-! PROOFS. The statements about the decoder of packets (42_channel_decoder.md sections 4 and 5). -/

open Sys2Proof Sys2Proof.Machine

namespace Sys2Proof.Proofs

/-- Settles O22, from the closed form of DECODE7. -/
theorem lastLaneWins : Obligations.LastLaneWins := by
  intro x s t hlen hexec
  rw [exec_captLast] at hexec
  cases hexec
  refine ⟨(length_decode7 _ _).trans hlen, fun i hi => ⟨fun k hk hlater => ?named, fun hnone => ?notNamed⟩, ?flag⟩
  case named =>
    rw [getElem?_decode7, lastLane_eq_some hi hk hlater, List.getElem?_eq_getElem (hlen ▸ hi)]
    rfl
  case notNamed =>
    rw [getElem?_decode7, lastLane_eq_none hnone]
    rfl
  case flag => simp only [decode7_flag, laneOf_ch]

/-- Settles O23: the fields of the two encoded bytes are the channel and the position. -/
theorem entryRoundTrip : Obligations.EntryRoundTrip := by
  intro f c p s
  rw [exec_entUnpack, unpack_encodeEntry]

end Sys2Proof.Proofs
end

section
/-! SUPPORT. The invariants of the state (10_state.md R31): the reset state has them, and each operation keeps them. -/

namespace Sys2Proof.Machine

/-- The reset state has the invariants, under every legal configuration (10_state.md R37). -/
theorem resetWith_inv {c : Config} (hc : c.legal = true) (l : List Input) : (State.resetWith c l).Inv where
  config := hc
  seeking_cnt _ := rfl
  flush_cnt h := nomatch h
  gap_le := Nat.zero_le _
  gap_pos h := absurd rfl h
  done_locked h := nomatch h
  done_acc h := nomatch h
  servo_length := List.length_replicate
  servo_high i _ := by
    rw [State.resetWith, List.getD_eq_getElem?_getD, List.getElem?_replicate]
    split <;> rfl
  unlocked_clear _ := ⟨rfl, rfl, rfl, rfl⟩
  no_anomaly _ := rfl
  wires := rfl

namespace State.Inv

variable {s : State} (h : s.Inv)
include h

/-- A move of the aligner and the timer keeps the invariants if its target has those of `st`, `cnt` and `gap`, and
`acc` is written in `S_LOCKED` only. -/
theorem move {x : St} {n : BitVec 4} {g : Nat} {a : Vector Byte 15} (hseek : x = .prime ∨ x = .seek → n = 0)
    (hflush : x = .flush → n ≠ 0) (hle : g ≤ s.cfg.gapMax) (hpos : x ≠ .prime → 1 ≤ g)
    (hlocked : x ≠ .locked → s.st ≠ .locked ∧ a = s.acc) :
    ({ s with st := x, cnt := n, gap := g, acc := a, pktDone := false } : State).edge.Inv where
  config := h.config
  seeking_cnt := hseek
  flush_cnt := hflush
  gap_le := hle
  gap_pos := hpos
  done_locked hd := nomatch hd
  done_acc hd := nomatch hd
  servo_length := h.servo_length
  servo_high := h.servo_high
  unlocked_clear hx := by
    obtain ⟨hs, rfl⟩ := hlocked hx
    exact h.unlocked_clear hs
  no_anomaly := h.no_anomaly
  wires := rfl

/-- A byte operation, which leaves 1 on the timer, keeps the invariants under the same conditions. -/
theorem moveOnByte {x : St} {n : BitVec 4} {a : Vector Byte 15} (hseek : x = .prime ∨ x = .seek → n = 0)
    (hflush : x = .flush → n ≠ 0) (hlocked : x ≠ .locked → s.st ≠ .locked ∧ a = s.acc) :
    ({ s with st := x, cnt := n, gap := 1, acc := a, pktDone := false } : State).edge.Inv :=
  h.move hseek hflush (Config.one_le_gapMax h.config) (fun _ => Nat.le_refl 1) hlocked

/-- With at least 16 entries no id is outside the table, so DECODE7 leaves the flag at 0 (10_state.md R28). -/
theorem decode7_flag_eq_false (P : Vector Byte 16) (hn : 16 ≤ s.cfg.nTable) :
    (decode7 s.cfg.nTable P s.servo s.anomOob).2 = false := by
  rw [Bool.eq_false_iff, Ne, decode7_flag, h.no_anomaly hn]
  rintro (hfalse | ⟨k, hk⟩)
  · cases hfalse
  · have := ((laneB0 P k).extractLsb' 3 4).isLt
    omega

/-- CAPT.LAST keeps the invariants: the block is locked at a packet boundary, and the table keeps its shape. -/
theorem performed_of_completesPacket (hp : s.CompletesPacket) : s.performed.edge.Inv := by
  have ⟨_, _, hst, _⟩ := hp
  rw [State.performed_of_completesPacket hp]
  exact
    { config := h.config
      seeking_cnt := fun _ => rfl
      flush_cnt := fun hx => nomatch hst.symm.trans hx
      gap_le := Config.one_le_gapMax h.config
      gap_pos := fun _ => Nat.le_refl 1
      done_locked := fun _ => ⟨hst, rfl⟩
      done_acc := fun _ i => (Vector.getElem_push_lt i.isLt).symm
      servo_length := (length_decode7 _ _).trans h.servo_length
      servo_high := fun i hi => by
        rw [State.edge_servo, List.getD_eq_getElem?_getD, getElem?_decode7_of_ge_16 hi,
          ← List.getD_eq_getElem?_getD, h.servo_high i hi]
      unlocked_clear := fun hx => absurd hst hx
      no_anomaly := h.decode7_flag_eq_false s.completed
      wires := rfl }

/-- Every operation and the clock edge after it keep the invariants. -/
theorem performed : s.performed.edge.Inv := by
  cases hr : s.inp.rst
  case true =>
    rw [State.performed_of_rst hr]
    exact resetWith_inv h.config s.stim.tail
  case false =>
    cases hv : s.inp.rxValid
    case false =>
      rw [State.performed_of_noByte hr hv]
      have hpos : s.st ≠ .prime → 1 ≤ satInc s.cfg s.gap := fun hx => by
        have := h.gap_pos hx
        unfold satInc
        split <;> omega
      exact h.move h.seeking_cnt h.flush_cnt (satInc_le_gapMax h.gap_le) hpos fun hx => ⟨hx, rfl⟩
    case true =>
      cases hst : s.st
      case prime =>
        rw [State.performed_of_prime hr hv hst]
        exact h.moveOnByte (fun _ => h.seeking_cnt (.inl hst)) (fun hx => nomatch hx)
          fun _ => ⟨fun hx => (nomatch hst.symm.trans hx), rfl⟩
      case seek =>
        have hunlocked : s.st ≠ .locked := fun hx => nomatch hst.symm.trans hx
        rcases Nat.lt_or_ge s.cfg.tTicks s.gap with hg | hg
        · rw [State.performed_of_seekLock hr hv hst hg]
          exact h.moveOnByte (fun hx => nomatch hx) (fun _ => by decide) fun _ => ⟨hunlocked, rfl⟩
        · rw [State.performed_of_seekSkip hr hv hst hg]
          exact h.moveOnByte h.seeking_cnt h.flush_cnt fun _ => ⟨hunlocked, rfl⟩
      case flush =>
        have hunlocked : s.st ≠ .locked := fun hx => nomatch hst.symm.trans hx
        by_cases hc : s.cnt = 15
        · rw [State.performed_of_flushLast hr hv hst hc]
          exact h.moveOnByte (fun _ => rfl) (fun hx => nomatch hx) fun hx => absurd rfl hx
        · rw [State.performed_of_flushSkip hr hv hst hc]
          have hne : s.cnt + 1 ≠ 0 := fun h0 => by
            have := cnt_succ_toNat hc
            rw [h0] at this
            cases this
          exact h.moveOnByte (fun hx => nomatch hx) (fun _ => hne) fun _ => ⟨hunlocked, rfl⟩
      case locked =>
        by_cases hc : s.cnt = 15
        · exact h.performed_of_completesPacket ⟨hr, hv, hst, hc⟩
        · rw [State.performed_of_captStore hr hv hst hc]
          exact h.moveOnByte (fun hx => nomatch hx) (fun hx => nomatch hx) fun hx => absurd rfl hx

end State.Inv
end Sys2Proof.Machine
end

section
/-! PROOFS. The invariants of 10_state.md section 2. -/

open Sys2Proof Sys2Proof.Machine

namespace Sys2Proof.Proofs

/-- Settles O38: every operation keeps the invariants. -/
theorem everyStepKeepsTheInvariants : Obligations.EveryStepKeepsTheInvariants := by
  intro s t hs hstep
  obtain ⟨-, rfl⟩ := step_next hstep
  exact hs.performed

/-- Settles O39: the reset values, and the example configuration is legal. -/
theorem resetStateHasTheInvariants : Obligations.ResetStateHasTheInvariants :=
  ⟨fun _ l hc => resetWith_inv hc l, resetWith_inv (by decide) []⟩

end Sys2Proof.Proofs
end

section
/-! SUPPORT. Runs as folds of `cycle`: the timer over silence, the event level over any inputs without reset
(41_frame_aligner.md R109), the control part over any inputs, and bytes after the lock. -/

namespace Sys2Proof.Machine

variable {s s' : State}

theorem foldl_cycle_cfg (s : State) (l : List Input) : (l.foldl cycle s).cfg = s.cfg := by
  induction l generalizing s with
  | nil => rfl
  | cons i l ih => rw [List.foldl_cons, ih, cycle_cfg]

/-- One cycle without reset is one event if a byte came, else none. -/
theorem cycle_ev {i : Input} (hi : i.rst = false) :
    (cycle s i).ev =
      if i.rxValid = true then stepEv s.cfg.nTable s.ev (decide (s.cfg.tTicks < s.gap)) i.rxData else s.ev :=
  State.performed_ev (s := s.given [i]) hi

theorem cycle_gap_of_byte {i : Input} (hi : i.rst = false) (hv : i.rxValid = true) : (cycle s i).gap = 1 :=
  State.performed_gap_of_byte (s := s.given [i]) hi hv

theorem cycle_gap_of_noByte {i : Input} (hi : i.rst = false) (hv : i.rxValid = false) :
    (cycle s i).gap = satInc s.cfg s.gap := by
  rw [cycle, State.performed_of_noByte (s := s.given [i]) hi hv]
  rfl

/-- The timer counts up to `GAP_MAX` and stays there (40_timing_sync.md R94). -/
theorem satInc_min (c : Config) (g : Nat) : satInc c (min g c.gapMax) = min (g + 1) c.gapMax := by
  unfold satInc
  split <;> omega

/-- The timer after cycles with neither byte nor reset (40_timing_sync.md R94). -/
theorem foldl_cycle_gap_of_noByte {l : List Input} (hl : ∀ i ∈ l, i.rst = false ∧ i.rxValid = false) {g : Nat}
    (hg : s.gap = min g s.cfg.gapMax) : (l.foldl cycle s).gap = min (g + l.length) s.cfg.gapMax := by
  induction l generalizing s g with
  | nil => exact hg
  | cons i l ih =>
    obtain ⟨⟨hr, hv⟩, hrest⟩ := List.forall_mem_cons.1 hl
    have hnext : (cycle s i).gap = min (g + 1) (cycle s i).cfg.gapMax := by
      rw [cycle_gap_of_noByte hr hv, hg, satInc_min, cycle_cfg]
    rw [List.foldl_cons, ih hrest hnext, cycle_cfg, List.length_cons, Nat.add_right_comm, Nat.add_assoc]

/-- Saturation at `GAP_MAX` does not change the comparison with the threshold (40_timing_sync.md R94). -/
theorem Config.lt_min_gapMax_iff {c : Config} (hc : c.legal = true) (g : Nat) :
    c.tTicks < min g c.gapMax ↔ c.tTicks < g := by
  have := ((Config.legal_iff c).1 hc).1
  omega

/-- The event level over any inputs without reset: the timer saturates where the gap of the event level counts on, and
no event tells the two apart. -/
theorem foldl_cycle_ev {l : List Input} (hc : s.cfg.legal = true) (hl : NoReset l) {g : Nat}
    (hg : s.gap = min g s.cfg.gapMax) :
    (l.foldl cycle s).ev = runEv s.cfg.nTable s.ev (events s.cfg.tTicks g l) := by
  induction l generalizing s g with
  | nil => rfl
  | cons i l ih =>
    obtain ⟨hr, hrest⟩ := List.forall_mem_cons.1 hl
    have hc' : (cycle s i).cfg.legal = true := by rw [cycle_cfg, hc]
    have hev := cycle_ev (s := s) hr
    rw [hg, decide_eq_decide.2 (Config.lt_min_gapMax_iff hc g)] at hev
    cases hv : i.rxValid
    case true =>
      have hnext : (cycle s i).gap = min 1 (cycle s i).cfg.gapMax := by
        rw [cycle_gap_of_byte hr hv, min_eq_left (Config.one_le_gapMax hc')]
      rw [List.foldl_cons, ih hc' hrest hnext, cycle_cfg, hev, events, hv]
      rfl
    case false =>
      have hnext : (cycle s i).gap = min (g + 1) (cycle s i).cfg.gapMax := by
        rw [cycle_gap_of_noByte hr hv, hg, satInc_min, cycle_cfg]
      rw [List.foldl_cons, ih hc' hrest hnext, cycle_cfg, hev, events, hv]
      rfl

/-- A cycle keeps two states in agreement on the control. -/
theorem State.SameControl.cycle (h : s.SameControl s') {i i' : Input} (hr : i.rst = i'.rst)
    (hv : i.rxValid = i'.rxValid) : (cycle s i).SameControl (cycle s' i') :=
  have hgiven : (s.given [i]).SameControl (s'.given [i']) := ⟨h.cfg, h.st, h.cnt, h.gap, h.pktDone⟩
  (hgiven.performed hr hv).edge

/-- Inputs that agree in `rst` and `rx_valid` keep two states in agreement on the control (20_memory.md section 6). -/
theorem State.SameControl.foldl_cycle (h : s.SameControl s') {l l' : List Input}
    (hl : l.map (fun i => (i.rst, i.rxValid)) = l'.map (fun i => (i.rst, i.rxValid))) :
    (l.foldl Machine.cycle s).SameControl (l'.foldl Machine.cycle s') := by
  induction l generalizing l' s s' with
  | nil =>
    cases List.map_eq_nil_iff.1 hl.symm
    exact h
  | cons i l ih =>
    cases l' with
    | nil => cases hl
    | cons i' l' =>
      rw [List.map_cons, List.map_cons, List.cons.injEq, Prod.mk.injEq] at hl
      obtain ⟨⟨hr, hv⟩, hrest⟩ := hl
      exact ih (h.cycle hr hv) hrest

/-! Bytes at any gaps. -/

theorem bytesAfter_cons (e : Nat × Byte) (l : List (Nat × Byte)) :
    bytesAfter (e :: l) = byteAfter e.1 e.2 ++ bytesAfter l := rfl

theorem bytesAfter_singleton (e : Nat × Byte) : bytesAfter [e] = byteAfter e.1 e.2 := List.append_nil _

theorem bytesAfter_append (l m : List (Nat × Byte)) : bytesAfter (l ++ m) = bytesAfter l ++ bytesAfter m :=
  List.flatMap_append

/-- A byte after a gap is silence and the cycle of the byte. -/
theorem foldl_byteAfter (s : State) (g : Nat) (d : Byte) :
    (byteAfter g d).foldl cycle s = cycle ((silence (g - 1)).foldl cycle s) (stRx d) := by
  rw [byteAfter, List.foldl_append]
  rfl

/-- Silence changes nothing the event level keeps. -/
theorem foldl_silence_ev (s : State) (n : Nat) : ((silence n).foldl cycle s).ev = s.ev := by
  induction n generalizing s with
  | zero => rfl
  | succ n ih => exact (ih (cycle s stIdle)).trans (cycle_ev rfl)

/-- After the lock a gap is not read: in `S_FLUSH` and `S_LOCKED` an event does the same after any gap
(70_reset_and_hazards.md section 3). -/
theorem stepEv_long_unread {n : Nat} {S : EvState} (hS : S.st = .flush ∨ S.st = .locked) (long long' : Bool)
    (d : Byte) : stepEv n S long d = stepEv n S long' d := by
  rcases hS with hst | hst <;> simp only [stepEv, hst]

/-- `S_FLUSH` and `S_LOCKED` are left to each other only. -/
theorem stepEv_afterLock {n : Nat} {S : EvState} (hS : S.st = .flush ∨ S.st = .locked) (long : Bool) (d : Byte) :
    (stepEv n S long d).st = .flush ∨ (stepEv n S long d).st = .locked := by
  rcases hS with hst | hst
  · by_cases hc : S.cnt = 15
    · exact .inr (by rw [stepEv_flushLast hst hc])
    · exact .inl (by rw [stepEv_flushSkip hst hc])
  · by_cases hc : S.cnt = 15
    · exact .inr (by rw [stepEv_captLast hst hc])
    · exact .inr (by rw [stepEv_captStore hst hc])

/-- The event level run over bytes whose gaps are not read. -/
def runBytes (n : Nat) (S : EvState) (ds : List Byte) : EvState := runEv n S (ds.map fun d => (false, d))

/-- After the lock a byte at any gap is one event, its gap unread. -/
theorem foldl_byteAfter_ev (hs : s.st = .flush ∨ s.st = .locked) (g : Nat) (d : Byte) :
    ((byteAfter g d).foldl cycle s).ev = stepEv s.cfg.nTable s.ev false d := by
  rw [foldl_byteAfter, cycle_ev rfl, if_pos (c := (stRx d).rxValid = true) rfl, foldl_cycle_cfg, foldl_silence_ev]
  exact stepEv_long_unread hs _ false d

/-- After the lock the event level of a run is that of its bytes, whatever their gaps are. -/
theorem foldl_bytesAfter_ev {l : List (Nat × Byte)} (hs : s.st = .flush ∨ s.st = .locked) :
    ((bytesAfter l).foldl cycle s).ev = runBytes s.cfg.nTable s.ev (bytesOf l) := by
  induction l generalizing s with
  | nil => rfl
  | cons e l ih =>
    have hev := foldl_byteAfter_ev hs e.1 e.2
    have hnext := stepEv_afterLock (n := s.cfg.nTable) (S := s.ev) hs false e.2
    rw [← hev] at hnext
    rw [bytesAfter_cons, List.foldl_append, ih hnext, foldl_cycle_cfg, hev]
    rfl

end Sys2Proof.Machine
end

section
/-! PROOFS. The statements about runs: the measured gap, the event level, the control, and gaps after the lock. -/

open Sys2Proof Sys2Proof.Machine

namespace Sys2Proof.Proofs

/-- Settles O42: the byte leaves 1 on the timer, each cycle after it adds one up to `GAP_MAX`. -/
theorem gapIsTheCyclesSinceTheLastByte : Obligations.GapIsTheCyclesSinceTheLastByte := by
  intro s d l hc hl
  have hfirst : (cycle (s.given []) (stRx d)).gap = min 1 (cycle (s.given []) (stRx d)).cfg.gapMax := by
    rw [cycle_gap_of_byte rfl rfl, cycle_cfg, min_eq_left (Config.one_le_gapMax (c := (s.given []).cfg) hc)]
  have hgap := foldl_cycle_gap_of_noByte hl hfirst
  rw [cycle_cfg, Nat.add_comm] at hgap
  refine ⟨_, (after_iff hc _).2 rfl, hgap, ?long⟩
  case long =>
    rw [State.long_iff, foldl_cycle_cfg, List.foldl_cons, hgap]
    exact Config.lt_min_gapMax_iff hc _

/-- Settles O43, from a timer that has not passed `GAP_MAX`. -/
theorem eventLevelAgrees : Obligations.EventLevelAgrees := fun s l hc hg hl =>
  ⟨_, (after_iff hc l).2 rfl, foldl_cycle_ev (s := s.given []) hc hl (min_eq_left hg).symm⟩

/-- Settles O44, cycle by cycle. -/
theorem dataNeverAltersControl : Obligations.DataNeverAltersControl := by
  intro s s' t t' l l' hcfg hst hcnt hgap hdone hl ht ht'
  have hstart : (s.given []).SameControl (s'.given []) := ⟨hcfg, hst, hcnt, hgap, hdone⟩
  have hend := hstart.foldl_cycle hl
  rw [← ht.eq_foldl, ← ht'.eq_foldl] at hend
  exact ⟨hend.st, hend.cnt, hend.gap, hend.pktDone⟩

/-- Settles O45: either run is the event level of the same bytes. -/
theorem gapsAreIgnoredAfterTheLock : Obligations.GapsAreIgnoredAfterTheLock := by
  intro s l l' hc hs _ _ hbytes
  refine ⟨_, _, (after_iff hc _).2 rfl, (after_iff hc _).2 rfl, ?same⟩
  case same => rw [foldl_bytesAfter_ev (s := s.given []) hs, foldl_bytesAfter_ev (s := s.given []) hs, hbytes]

end Sys2Proof.Proofs
end

section
/-! SUPPORT. What is observed of a run (00_scope.md R18): the packets shown by the pulses, cycle by cycle. -/

namespace Sys2Proof.Machine

variable {s : State}

/-- The packets that the pulses after the cycles of a list of inputs show. -/
def observed (s : State) (l : List Input) : List (Vector Byte 16) := (cyclesFrom s l).flatMap State.pulse

theorem observed_append (s : State) (l m : List Input) :
    observed s (l ++ m) = observed s l ++ observed (l.foldl cycle s) m := by
  rw [observed, cyclesFrom_append, List.flatMap_append]
  rfl

theorem observed_cons (s : State) (i : Input) (l : List Input) :
    observed s (i :: l) = (cycle s i).pulse ++ observed (cycle s i) l := rfl

theorem observed_singleton (s : State) (i : Input) : observed s [i] = (cycle s i).pulse :=
  List.append_nil _

/-- A cycle raises the pulse exactly if it takes the 16th byte of a packet (10_state.md R26). -/
theorem cycle_pktDone_iff (s : State) (i : Input) :
    (cycle s i).pktDone = true ↔ i.rst = false ∧ i.rxValid = true ∧ s.st = .locked ∧ s.cnt = 15 :=
  State.performed_pktDone_iff (s := s.given [i])

/-- A cycle shows the packet it completes, or none (41_frame_aligner.md section 4). -/
theorem pulse_cycle (s : State) (i : Input) :
    (cycle s i).pulse =
      if i.rst = false ∧ i.rxValid = true ∧ s.st = .locked ∧ s.cnt = 15 then [s.acc.push i.rxData] else [] := by
  simp only [State.pulse, cycle_pktDone_iff]
  split
  case isTrue h => rw [cycle, State.performed_of_completesPacket (s := s.given [i]) h]; rfl
  case isFalse => rfl

/-- The packets shown by the pulses are the committed packets of the states with the pulse up. -/
theorem flatMap_pulse (us : List State) :
    us.flatMap State.pulse = (us.filter fun u => u.pktDone).map fun u => u.pkt := by
  induction us with
  | nil => rfl
  | cons u us ih =>
    rw [List.flatMap_cons, ih, State.pulse, List.filter_cons]
    cases u.pktDone <;> rfl

theorem getElem_cyclesFrom {l : List Input} {k : Nat} (h : k < (cyclesFrom s l).length) :
    (cyclesFrom s l)[k] = (l.take (k + 1)).foldl cycle s := by
  induction l generalizing s k with
  | nil => cases h
  | cons i l ih =>
    cases k with
    | zero => rfl
    | succ k => exact ih (Nat.lt_of_succ_lt_succ h)

/-- The last of the states of a run is the state after it. -/
theorem getLast?_cyclesFrom_cons (i : Input) (l : List Input) :
    (cyclesFrom s (i :: l)).getLast? = some ((i :: l).foldl cycle s) := by
  induction l generalizing s i with
  | nil => rfl
  | cons j l ih => exact (List.getLast?_cons_cons).trans (ih j)

/-- After a reset cycle the parameters are all that is left of the state before (70_reset_and_hazards.md R160). -/
theorem cycle_of_rst {i : Input} (hi : i.rst = true) : cycle s i = State.resetWith s.cfg [] := by
  rw [cycle, State.performed_of_rst (s := s.given [i]) hi]
  rfl

theorem beginsWithReset_iff (l : List Input) :
    beginsWithReset l = true ↔ ∃ i m, l = i :: m ∧ i.rst = true := by
  cases l <;> simp [beginsWithReset]

/-- The result of a run that begins with a reset, in a legal configuration (00_scope.md R18). -/
theorem runResult_eq {l : List Input} (hc : s.cfg.legal = true) (hl : beginsWithReset l = true) :
    runResult l s =
      some { nTable := (l.foldl cycle (s.given [])).cfg.nTable, ports := outputs (l.foldl cycle (s.given []))
             packets := observed (s.given []) l } := by
  have hrun : runFor l.length (s.given l) = .next (l.foldl cycle (s.given [])) := (after_iff hc l).2 rfl
  rw [runResult, if_pos hl, hrun, packetsFor_given hc]
  rfl

end Sys2Proof.Machine
end

section
/-! PROOFS. The statements about the observable result of a run (00_scope.md section 6). -/

open Sys2Proof Sys2Proof.Machine

namespace Sys2Proof.Proofs

/-- Settles O55: the states after the cycles are the fold's, and the first of them is the reset state. -/
theorem observableResultOfARun : Obligations.ObservableResultOfARun := by
  refine ⟨fun s l hc hl => ?result, fun s l hl => ?none⟩
  case result =>
    obtain ⟨i, m, rfl, hi⟩ := (beginsWithReset_iff l).1 hl
    refine ⟨cyclesFrom (s.given []) (i :: m), _, cyclesFrom_length _ _, getLast?_cyclesFrom_cons i m,
      fun k h => (after_iff hc _).2 (getElem_cyclesFrom h), ?packets, fun s' hs' => ?unread⟩
    case packets => rw [runResult_eq hc hl, observed, flatMap_pulse]
    case unread =>
      have hfirst : cycle (s'.given []) i = cycle (s.given []) i := by
        rw [cycle_of_rst hi, cycle_of_rst hi, State.given_cfg, State.given_cfg, hs']
      rw [runResult_eq hc hl, runResult_eq (hs' ▸ hc) hl, List.foldl_cons, List.foldl_cons, observed_cons,
        observed_cons, hfirst]
  case none => rw [runResult, hl]; rfl

/-- Settles O56: the last cycle shows the packet it completes, or none. -/
theorem pulsesAreTheCommits : Obligations.PulsesAreTheCommits := by
  intro s t l i hc ht
  have hlast : observed (s.given []) (l ++ [i]) = observed (s.given []) l ++ (cycle t i).pulse := by
    rw [observed_append, ← ht.eq_foldl, observed_singleton]
  rw [pulse_cycle] at hlast
  have hlen : l.length + 1 = (l ++ [i]).length := (List.length_append (bs := [i])).symm
  rw [hlen, packetsFor_given hc, packetsFor_given hc]
  exact hlast

end Sys2Proof.Proofs
end

section
/-! SUPPORT. The bytes of packets at the event level (41_frame_aligner.md section 3): the flush up to the lock, the
capture of a packet byte by byte, its commit, and the packets that come one after the other. -/

namespace Sys2Proof.Machine

variable {n : Nat} {S base : EvState} {ds : List Byte}

/-- The packet that a byte completes, or none. -/
def EvState.completes (S : EvState) (d : Byte) : List (Vector Byte 16) :=
  if S.st = .locked ∧ S.cnt = 15 then [S.acc.push d] else []

/-- The packets completed by a list of bytes after the lock, in order. -/
def commits (n : Nat) : EvState → List Byte → List (Vector Byte 16)
  | _, [] => []
  | S, d :: ds => S.completes d ++ commits n (stepEv n S false d) ds

theorem EvState.completes_of_not_locked (hS : S.st ≠ .locked) (d : Byte) : S.completes d = [] :=
  if_neg fun h => hS h.1

theorem EvState.completes_of_cnt_ne (hS : S.cnt ≠ 15) (d : Byte) : S.completes d = [] :=
  if_neg fun h => hS h.2

theorem runBytes_cons (d : Byte) : runBytes n S (d :: ds) = runBytes n (stepEv n S false d) ds := rfl

theorem runBytes_append (ds' : List Byte) : runBytes n S (ds ++ ds') = runBytes n (runBytes n S ds) ds' := by
  rw [runBytes, runBytes, runBytes, List.map_append, runEv, List.foldl_append]
  rfl

theorem commits_append (ds' : List Byte) :
    commits n S (ds ++ ds') = commits n S ds ++ commits n (runBytes n S ds) ds' := by
  induction ds generalizing S with
  | nil => rfl
  | cons d ds ih => rw [List.cons_append, commits, ih, commits, runBytes_cons, List.append_assoc]

/-- The bytes of the locking packet are counted and discarded (41_frame_aligner.md R104, R105). -/
theorem flush_packet (hst : S.st = .flush) (hlen : S.cnt.toNat + ds.length = 16) :
    runBytes n S ds = { S with st := .locked, cnt := 0 } ∧ commits n S ds = [] := by
  induction ds generalizing S with
  | nil =>
    have := S.cnt.isLt
    rw [List.length_nil] at hlen
    omega
  | cons d ds ih =>
    rw [List.length_cons] at hlen
    rw [runBytes_cons, commits, EvState.completes_of_not_locked (by rw [hst]; decide), List.nil_append]
    by_cases hc : S.cnt = 15
    · have hlast : S.cnt.toNat = 15 := congrArg BitVec.toNat hc
      have hnil : ds = [] := List.eq_nil_of_length_eq_zero (by omega)
      rw [hnil, stepEv_flushLast hst hc]
      exact ⟨rfl, rfl⟩
    · rw [stepEv_flushSkip hst hc]
      refine ih rfl ?_
      rw [cnt_succ_toNat hc]
      omega

/-- Packet bytes `ds` stand in `acc` in `S_LOCKED`, and the committed packet, the table and the flag are those of
`base` (41_frame_aligner.md R106). -/
structure EvState.Capturing (base : EvState) (ds : List Byte) (S : EvState) : Prop where
  st : S.st = .locked
  cnt : S.cnt.toNat = ds.length
  acc : S.acc.toList.take ds.length = ds
  pkt : S.pkt = base.pkt
  servo : S.servo = base.servo
  anomOob : S.anomOob = base.anomOob

/-- At a packet boundary no byte of the next packet is held. -/
theorem EvState.capturing_nil (hst : S.st = .locked) (hcnt : S.cnt = 0) : S.Capturing [] S :=
  ⟨hst, by rw [hcnt]; rfl, rfl, rfl, rfl, rfl⟩

namespace EvState.Capturing

theorem cnt_ne_15 (h : base.Capturing ds S) (hlen : ds.length < 15) : S.cnt ≠ 15 := fun hc => by
  have hcnt := h.cnt
  rw [hc] at hcnt
  exact Nat.ne_of_lt hlen hcnt.symm

theorem cnt_eq_15 (h : base.Capturing ds S) (hlen : ds.length = 15) : S.cnt = 15 :=
  BitVec.eq_of_toNat_eq (h.cnt.trans hlen)

/-- A byte below index 15 is stored behind the others. -/
theorem store (h : base.Capturing ds S) (hlen : ds.length < 15) (d : Byte) :
    base.Capturing (ds ++ [d]) (stepEv n S false d) := by
  have hc := h.cnt_ne_15 hlen
  have hlength : (ds ++ [d]).length = ds.length + 1 := List.length_append
  rw [stepEv_captStore h.st hc]
  refine ⟨rfl, ?cnt, ?acc, h.pkt, h.servo, h.anomOob⟩
  case cnt => rw [cnt_succ_toNat hc, h.cnt, hlength]
  case acc =>
    rw [hlength, h.cnt, Vector.toList_setIfInBounds, List.take_add_one, List.take_set_of_le (Nat.le_refl _), h.acc,
      List.getElem?_set_self (by simpa using hlen)]
    rfl

/-- Bytes that do not fill the packet are stored, and none is completed. -/
theorem run {ds' : List Byte} (h : base.Capturing ds S) (hlen : ds.length + ds'.length < 16) :
    base.Capturing (ds ++ ds') (runBytes n S ds') ∧ commits n S ds' = [] := by
  induction ds' generalizing ds S with
  | nil =>
    rw [List.append_nil]
    exact ⟨h, rfl⟩
  | cons d ds' ih =>
    rw [List.length_cons] at hlen
    have hroom : ds.length < 15 := by omega
    have hnext := ih (h.store (n := n) hroom d) (by rw [List.length_append, List.length_singleton]; omega)
    rw [List.append_assoc, List.singleton_append] at hnext
    rw [runBytes_cons, commits, completes_of_cnt_ne (h.cnt_ne_15 hroom)]
    exact hnext

end EvState.Capturing

/-- A whole packet taken from `base` leaves the block at the next packet boundary, the packet committed and its lanes
decoded (41_frame_aligner.md R107). -/
structure EvState.Took (n : Nat) (base : EvState) (ds : List Byte) (S : EvState) : Prop where
  st : S.st = .locked
  cnt : S.cnt = 0
  pkt : S.pkt.toList = ds
  decoded : (S.servo, S.anomOob) = decode7 n S.pkt base.servo base.anomOob

/-- The 16th byte commits the packet. -/
theorem EvState.Capturing.commit (h : base.Capturing ds S) (hlen : ds.length = 15) (d : Byte) :
    base.Took n (ds ++ [d]) (stepEv n S false d) ∧ S.completes d = [(stepEv n S false d).pkt] := by
  have hc := h.cnt_eq_15 hlen
  have hacc : S.acc.toList = ds := by
    have hfull := h.acc
    rwa [List.take_of_length_le (by rw [Vector.length_toList, hlen])] at hfull
  rw [stepEv_captLast h.st hc]
  refine ⟨⟨rfl, rfl, ?pkt, ?decoded⟩, if_pos ⟨h.st, hc⟩⟩
  case pkt => rw [Vector.toList_push, hacc]
  case decoded => rw [← h.servo, ← h.anomOob]

theorem exists_eq_append_singleton {α : Type} {l : List α} {k : Nat} (h : l.length = k + 1) :
    ∃ m x, l = m ++ [x] ∧ m.length = k := by
  rcases List.eq_nil_or_concat l with rfl | ⟨m, x, rfl⟩
  · cases h
  · exact ⟨m, x, List.concat_eq_append, by simpa using h⟩

/-- From a packet boundary 16 bytes are one packet (42_channel_decoder.md section 2). -/
theorem EvState.took_packet (hst : S.st = .locked) (hcnt : S.cnt = 0) (hlen : ds.length = 16) :
    S.Took n ds (runBytes n S ds) ∧ commits n S ds = [(runBytes n S ds).pkt] := by
  obtain ⟨init, d, rfl, hinit⟩ := exists_eq_append_singleton hlen
  obtain ⟨hcapt, hnone⟩ := (capturing_nil hst hcnt).run (n := n) (ds' := init) (by simp [hinit])
  rw [List.nil_append] at hcapt
  obtain ⟨htook, hone⟩ := hcapt.commit (n := n) hinit d
  rw [runBytes_append, commits_append, hnone]
  exact ⟨htook, (List.append_nil _).trans hone⟩

/-- The same packet a second time changes neither the packet nor the table nor the flag (42_channel_decoder.md section
5). -/
theorem EvState.Took.again {T : EvState} (h : base.Took n ds S) (h' : S.Took n ds T) :
    T.pkt = S.pkt ∧ T.servo = S.servo ∧ T.anomOob = S.anomOob := by
  have hpkt : T.pkt = S.pkt := Vector.toList_inj.1 (h'.pkt.trans h.pkt.symm)
  have hdecoded : (T.servo, T.anomOob) = (S.servo, S.anomOob) := by
    rw [h'.decoded, hpkt]
    exact decode7_again (r := (S.servo, S.anomOob)) h.decoded
  exact ⟨hpkt, Prod.mk.inj hdecoded⟩

/-- Packets one after the other: each is committed, none is lost or added (41_frame_aligner.md section 3). -/
theorem EvState.took_packets {packets : List (List Byte)} (hst : S.st = .locked) (hcnt : S.cnt = 0)
    (hlen : ∀ p ∈ packets, p.length = 16) :
    (runBytes n S packets.flatten).st = .locked ∧ (runBytes n S packets.flatten).cnt = 0 ∧
      (commits n S packets.flatten).map Vector.toList = packets := by
  induction packets generalizing S with
  | nil => exact ⟨hst, hcnt, rfl⟩
  | cons p packets ih =>
    obtain ⟨hp, hrest⟩ := List.forall_mem_cons.1 hlen
    obtain ⟨htook, hone⟩ := took_packet (n := n) hst hcnt hp
    obtain ⟨hst', hcnt', hcommits⟩ := ih htook.st htook.cnt hrest
    rw [List.flatten_cons, runBytes_append, commits_append, hone]
    exact ⟨hst', hcnt', by rw [List.map_append, hcommits, List.map_singleton, htook.pkt]; rfl⟩

end Sys2Proof.Machine
end

section
/-! SUPPORT. Bytes at any gaps after the lock (41_frame_aligner.md section 3): what the clock-cycle machine commits and
shows is what the event level takes from the bytes; and the way from reset to the lock. -/

namespace Sys2Proof.Machine

variable {s : State}

theorem observed_silence (s : State) (n : Nat) : observed s (silence n) = [] := by
  induction n generalizing s with
  | zero => rfl
  | succ n ih =>
    have hnone : (cycle s stIdle).pulse = [] := (pulse_cycle s stIdle).trans (if_neg fun ⟨_, hv, _⟩ => nomatch hv)
    exact (observed_cons s stIdle (silence n)).trans (by rw [hnone, ih, List.append_nil])

theorem foldl_silence_st (s : State) (n : Nat) : ((silence n).foldl cycle s).st = s.st :=
  congrArg EvState.st (foldl_silence_ev s n)

theorem foldl_silence_cnt (s : State) (n : Nat) : ((silence n).foldl cycle s).cnt = s.cnt :=
  congrArg EvState.cnt (foldl_silence_ev s n)

/-- A byte shows the packet it completes, or none. -/
theorem pulse_cycle_stRx (s : State) (d : Byte) : (cycle s (stRx d)).pulse = s.ev.completes d :=
  (pulse_cycle s (stRx d)).trans (if_congr ⟨fun ⟨_, _, h⟩ => h, fun h => ⟨rfl, rfl, h⟩⟩ rfl rfl)

/-- A byte at any gap shows the packet it completes, or none. -/
theorem observed_byteAfter (s : State) (g : Nat) (d : Byte) : observed s (byteAfter g d) = s.ev.completes d := by
  rw [byteAfter, observed_append, observed_silence, List.nil_append, observed_singleton, pulse_cycle_stRx,
    foldl_silence_ev]

/-- A byte at any gap that is the 16th of a packet raises the pulse. -/
theorem foldl_byteAfter_pktDone (hst : s.st = .locked) (hcnt : s.cnt = 15) (g : Nat) (d : Byte) :
    ((byteAfter g d).foldl cycle s).pktDone = true := by
  rw [foldl_byteAfter, cycle_pktDone_iff, foldl_silence_st, foldl_silence_cnt]
  exact ⟨rfl, rfl, hst, hcnt⟩

/-- After the lock the packets shown in a run are those its bytes complete, whatever their gaps are. -/
theorem observed_bytesAfter {l : List (Nat × Byte)} (hs : s.st = .flush ∨ s.st = .locked) :
    observed s (bytesAfter l) = commits s.cfg.nTable s.ev (bytesOf l) := by
  induction l generalizing s with
  | nil => rfl
  | cons e l ih =>
    have hev := foldl_byteAfter_ev hs e.1 e.2
    have hnext := stepEv_afterLock (n := s.cfg.nTable) (S := s.ev) hs false e.2
    rw [← hev] at hnext
    rw [bytesAfter_cons, observed_append, observed_byteAfter, ih hnext, foldl_cycle_cfg, hev]
    rfl

/-! Up to the lock. -/

theorem State.Inv.given (h : s.Inv) (l : List Input) : (s.given l).Inv :=
  { config := h.config, seeking_cnt := h.seeking_cnt, flush_cnt := h.flush_cnt, gap_le := h.gap_le
    gap_pos := h.gap_pos, done_locked := h.done_locked, done_acc := h.done_acc, servo_length := h.servo_length
    servo_high := h.servo_high, unlocked_clear := h.unlocked_clear, no_anomaly := h.no_anomaly, wires := h.wires }

/-- Every run keeps the invariants. -/
theorem State.Inv.foldl_cycle (h : s.Inv) (l : List Input) : (l.foldl cycle s).Inv :=
  List.foldlRecOn l cycle h fun _ hu i _ => (hu.given [i]).performed

theorem noReset_bytesAfter (l : List (Nat × Byte)) : NoReset (bytesAfter l) := by
  intro i hi
  obtain ⟨e, -, he⟩ := List.mem_flatMap.1 hi
  rcases List.mem_append.1 he with hidle | hbyte
  · rw [List.eq_of_mem_replicate hidle]
    rfl
  · rw [List.mem_singleton.1 hbyte]
    rfl

/-- A run without reset that does not end in `S_LOCKED` was never there, so it showed no packet. -/
theorem observed_eq_nil_of_not_locked {l : List Input} (hl : NoReset l) (h : (l.foldl cycle s).st ≠ .locked) :
    observed s l = [] := by
  induction l using List.reverseRecOn with
  | nil => rfl
  | append_singleton l i ih =>
    obtain ⟨hl', hi⟩ := List.forall_mem_append.1 hl
    rw [List.foldl_append] at h
    have hbefore : (l.foldl cycle s).st ≠ .locked := fun hlocked =>
      h (St.eq_locked_of_le (hlocked ▸ cycle_st_ge (l.foldl cycle s) (hi i (List.mem_singleton_self i))))
    have hnone : (cycle (l.foldl cycle s) i).pulse = [] :=
      (pulse_cycle _ i).trans (if_neg fun ⟨_, _, hlocked, _⟩ => hbefore hlocked)
    rw [observed_append, ih hl' hbefore, observed_singleton, hnone, List.append_nil]

/-- After reset, a first byte and bytes after short gaps the block seeks (41_frame_aligner.md R101, R102). -/
theorem quiet_beforeLock (s : State) (first : Nat × Byte) {pre : List (Nat × Byte)} (hpre : ShortGaps s.cfg pre) :
    ((stRst :: bytesAfter (first :: pre)).foldl cycle s).Quiet s.cfg .seek 1 := by
  rw [List.foldl_cons, bytesAfter_cons, List.foldl_append]
  exact ((quiet_cycle_stRst s).foldl_byteAfter_of_prime first.1 first.2).foldl_bytesAfter_of_seek hpre

/-- In the seeking block a byte after a long gap takes the lock (41_frame_aligner.md R103). -/
theorem foldl_byteAfter_lock {c : Config} (hq : s.Quiet c .seek 1) (hs : s.Inv) {g : Nat} (hg : c.tTicks < g)
    (d : Byte) : ((byteAfter g d).foldl cycle s).ev = { s.ev with st := .flush, cnt := 1 } := by
  have hgap : s.gap = min 1 s.cfg.gapMax := by
    have hpos : 1 ≤ s.gap := hs.gap_pos (by rw [hq.st]; decide)
    rw [min_eq_left (Config.one_le_gapMax hs.config)]
    exact Nat.le_antisymm hq.gap_le hpos
  have hsilent : ∀ i ∈ silence (g - 1), i.rst = false ∧ i.rxValid = false := fun i hi => by
    rw [List.eq_of_mem_replicate hi]
    exact ⟨rfl, rfl⟩
  have hlong : s.cfg.tTicks < ((silence (g - 1)).foldl cycle s).gap := by
    have hticks : s.cfg.tTicks < 1 + (g - 1) := by
      rw [hq.cfg]
      omega
    rw [foldl_cycle_gap_of_noByte hsilent hgap, silence, List.length_replicate]
    exact (Config.lt_min_gapMax_iff hs.config _).2 hticks
  rw [foldl_byteAfter, cycle_ev rfl, if_pos (c := (stRx d).rxValid = true) rfl, foldl_cycle_cfg, foldl_silence_ev,
    decide_eq_true hlong]
  exact stepEv_seekLock hq.st rfl

/-- The block has just taken the lock: this byte was index 0 of the packet to be flushed. -/
structure State.TookLock (c : Config) (s : State) : Prop where
  inv : s.Inv
  cfg : s.cfg = c
  st : s.st = .flush
  cnt : s.cnt = 1

/-- From reset, with the lock on the last byte: the block starts the flush, and no packet is shown. -/
theorem tookLock_of_longGap (hc : s.cfg.legal = true) {first lock : Nat × Byte} {pre : List (Nat × Byte)}
    (hpre : ShortGaps s.cfg pre) (hlock : s.cfg.tTicks < lock.1) :
    ((stRst :: bytesAfter (first :: pre ++ [lock])).foldl cycle s).TookLock s.cfg ∧
      observed s (stRst :: bytesAfter (first :: pre ++ [lock])) = [] := by
  have hreset : cycle s stRst = State.resetWith s.cfg [] := cycle_of_rst rfl
  have hinv (l : List Input) : ((stRst :: l).foldl cycle s).Inv := by
    rw [List.foldl_cons, hreset]
    exact (resetWith_inv hc []).foldl_cycle l
  have hev := foldl_byteAfter_lock (quiet_beforeLock s first hpre) (hinv _) hlock lock.2
  have hend : stRst :: bytesAfter (first :: pre ++ [lock]) =
      (stRst :: bytesAfter (first :: pre)) ++ byteAfter lock.1 lock.2 := by
    rw [bytesAfter_append, List.cons_append, bytesAfter_singleton]
  rw [← List.foldl_append, ← hend] at hev
  have hst := congrArg EvState.st hev
  refine ⟨⟨hinv _, foldl_cycle_cfg _ _, hst, congrArg EvState.cnt hev⟩, ?observed⟩
  case observed =>
    have hunlocked : ((bytesAfter (first :: pre ++ [lock])).foldl cycle (cycle s stRst)).st ≠ .locked := fun h =>
      nomatch hst.symm.trans h
    rw [observed_cons, observed_eq_nil_of_not_locked (noReset_bytesAfter _) hunlocked, hreset]
    rfl

/-- The block is aligned at its first packet boundary after reset: nothing is committed yet. -/
structure State.Aligned (c : Config) (s : State) : Prop where
  cfg : s.cfg = c
  st : s.st = .locked
  cnt : s.cnt = 0
  pktDone : s.pktDone = false
  pkt : s.pkt = Vector.replicate 16 0
  servo : s.servo = List.replicate c.nTable 0
  anomOob : s.anomOob = false

/-- A run that shows no packet ends with the pulse down. -/
theorem pktDone_eq_false_of_observed_nil {l : List Input} (hl : l ≠ []) (h : observed s l = []) :
    (l.foldl cycle s).pktDone = false := by
  rcases List.eq_nil_or_concat l with rfl | ⟨m, i, rfl⟩
  · exact absurd rfl hl
  · rw [List.concat_eq_append, observed_append, List.append_eq_nil_iff, observed_singleton, State.pulse] at h
    rw [List.concat_eq_append, List.foldl_append]
    exact Bool.eq_false_iff.2 fun hdone => nomatch (if_pos hdone).symm.trans h.2

/-- The stimulus of the lock: reset, a first byte, the bytes `pre`, the locking byte, the flushed bytes `fl`
(41_frame_aligner.md section 3). -/
def lockStimulus (first : Nat × Byte) (pre : List (Nat × Byte)) (lock : Nat × Byte) (fl : List (Nat × Byte)) :
    List Input :=
  stRst :: bytesAfter (first :: pre ++ lock :: fl)

theorem lockStimulus_append (first : Nat × Byte) (pre : List (Nat × Byte)) (lock : Nat × Byte)
    (fl l : List (Nat × Byte)) :
    stRst :: bytesAfter (first :: pre ++ lock :: fl ++ l) = lockStimulus first pre lock fl ++ bytesAfter l := by
  rw [bytesAfter_append]
  rfl

theorem lockStimulus_eq (first : Nat × Byte) (pre : List (Nat × Byte)) (lock : Nat × Byte)
    (fl : List (Nat × Byte)) :
    lockStimulus first pre lock fl = (stRst :: bytesAfter (first :: pre ++ [lock])) ++ bytesAfter fl := by
  have hbytes : first :: pre ++ lock :: fl = (first :: pre ++ [lock]) ++ fl := by simp
  rw [lockStimulus, hbytes, bytesAfter_append]
  rfl

/-- The stimulus of the lock aligns the block, and no packet is shown. -/
theorem aligned_lockStimulus (hc : s.cfg.legal = true) {first lock : Nat × Byte} {pre fl : List (Nat × Byte)}
    (hpre : ShortGaps s.cfg pre) (hlock : s.cfg.tTicks < lock.1) (hfl : fl.length = 15) :
    ((lockStimulus first pre lock fl).foldl cycle s).Aligned s.cfg ∧
      observed s (lockStimulus first pre lock fl) = [] := by
  obtain ⟨htook, hnone⟩ := tookLock_of_longGap hc (first := first) hpre hlock
  obtain ⟨-, hpkt, hservo, hanom⟩ := htook.inv.unlocked_clear fun h => nomatch htook.st.symm.trans h
  obtain ⟨hrun, hcommits⟩ := flush_packet (n := s.cfg.nTable) (S := State.ev _) (ds := bytesOf fl) htook.st
    (by rw [bytesOf, List.length_map, hfl]; exact congrArg (BitVec.toNat · + 15) htook.cnt)
  have hev := foldl_bytesAfter_ev (l := fl) (.inl htook.st)
  rw [htook.cfg, hrun, ← List.foldl_append, ← lockStimulus_eq] at hev
  have hobserved : observed s (lockStimulus first pre lock fl) = [] := by
    rw [lockStimulus_eq, observed_append, hnone, List.nil_append, observed_bytesAfter (.inl htook.st), htook.cfg,
      hcommits]
  refine ⟨?aligned, hobserved⟩
  case aligned =>
    exact
      { cfg := foldl_cycle_cfg _ _
        st := congrArg EvState.st hev
        cnt := congrArg EvState.cnt hev
        pktDone := pktDone_eq_false_of_observed_nil (List.cons_ne_nil _ _) hobserved
        pkt := (congrArg EvState.pkt hev).trans hpkt
        servo := (congrArg EvState.servo hev).trans (htook.cfg ▸ hservo)
        anomOob := (congrArg EvState.anomOob hev).trans hanom }

/-- A whole packet of bytes at any gaps, taken from a packet boundary in the state `s`, has led to the state `t`. -/
structure State.TookPacket (s : State) (ds : List Byte) (t : State) : Prop where
  cfg : t.cfg = s.cfg
  ev : s.ev.Took s.cfg.nTable ds t.ev
  pktDone : t.pktDone = true

/-- The lane ports show the packet under the parameters, and nothing else (10_state.md R35). -/
theorem outputs_lanes_eq {t u : State} (hcfg : u.cfg = t.cfg) (hpkt : u.pkt = t.pkt) :
    (outputs u).entCh = (outputs t).entCh ∧ (outputs u).entPos = (outputs t).entPos ∧
      (outputs u).entOob = (outputs t).entOob := by
  simp only [outputs, hcfg, hpkt, and_self]

/-- The same packet a second time leaves the packet, the table and the flag (42_channel_decoder.md section 5). -/
theorem State.TookPacket.again {ds : List Byte} {t u : State} (h : s.TookPacket ds t)
    (h' : (t.given []).TookPacket ds u) : u.pkt = t.pkt ∧ u.servo = t.servo ∧ u.anomOob = t.anomOob := by
  have hev := h'.ev
  rw [State.given_cfg, h.cfg] at hev
  exact h.ev.again hev

/-- From a packet boundary 16 bytes at any gaps are one packet (42_channel_decoder.md section 2). -/
theorem tookPacket_bytesAfter {l : List (Nat × Byte)} (hst : s.st = .locked) (hcnt : s.cnt = 0)
    (hlen : l.length = 16) : s.TookPacket (bytesOf l) ((bytesAfter l).foldl cycle s) := by
  have hev := foldl_bytesAfter_ev (l := l) (.inr hst)
  refine ⟨foldl_cycle_cfg _ _, ?ev, ?pktDone⟩
  case ev =>
    rw [hev]
    exact (EvState.took_packet hst hcnt (by rw [bytesOf, List.length_map, hlen])).1
  case pktDone =>
    obtain ⟨init, last, rfl, hinit⟩ := exists_eq_append_singleton hlen
    have hev := foldl_bytesAfter_ev (l := init) (.inr hst)
    obtain ⟨hcapt, -⟩ := (EvState.capturing_nil (S := s.ev) hst hcnt).run (n := s.cfg.nTable) (ds' := bytesOf init)
      (by simp [bytesOf, hinit])
    rw [← hev] at hcapt
    rw [bytesAfter_append, List.foldl_append, bytesAfter_singleton]
    exact foldl_byteAfter_pktDone hcapt.st (hcapt.cnt_eq_15 (by simp [bytesOf, hinit])) last.1 last.2

theorem bytesOf_flatten (packets : List (List (Nat × Byte))) :
    bytesOf packets.flatten = (packets.map bytesOf).flatten :=
  List.map_flatten

/-- From a packet boundary packets at any gaps are taken one by one, and those are the packets shown. -/
theorem foldl_bytesAfter_packets {packets : List (List (Nat × Byte))} (hst : s.st = .locked) (hcnt : s.cnt = 0)
    (hlen : ∀ p ∈ packets, p.length = 16) :
    ((bytesAfter packets.flatten).foldl cycle s).st = .locked ∧
      ((bytesAfter packets.flatten).foldl cycle s).cnt = 0 ∧
      (observed s (bytesAfter packets.flatten)).map Vector.toList = packets.map bytesOf := by
  have hev := foldl_bytesAfter_ev (l := packets.flatten) (.inr hst)
  have hlen' : ∀ ds ∈ packets.map bytesOf, ds.length = 16 := by
    intro ds hds
    obtain ⟨p, hp, rfl⟩ := List.mem_map.1 hds
    rw [bytesOf, List.length_map, hlen p hp]
  obtain ⟨hst', hcnt', hcommits⟩ := EvState.took_packets (n := s.cfg.nTable) (S := s.ev) hst hcnt hlen'
  rw [bytesOf_flatten] at hev
  rw [observed_bytesAfter (.inr hst), bytesOf_flatten]
  exact ⟨(congrArg EvState.st hev).trans hst', (congrArg EvState.cnt hev).trans hcnt', hcommits⟩

/-- Fewer than 16 bytes after a packet boundary are held, and show no packet. -/
theorem foldl_bytesAfter_part {l : List (Nat × Byte)} (hst : s.st = .locked) (hcnt : s.cnt = 0)
    (hlen : l.length < 16) :
    ((bytesAfter l).foldl cycle s).st = .locked ∧ ((bytesAfter l).foldl cycle s).cnt.toNat = l.length ∧
      observed s (bytesAfter l) = [] := by
  have hbytes : (bytesOf l).length = l.length := List.length_map _
  obtain ⟨hcapt, hnone⟩ := (EvState.capturing_nil (S := s.ev) hst hcnt).run (n := s.cfg.nTable) (ds' := bytesOf l)
    (by rw [hbytes, List.length_nil, Nat.zero_add]; exact hlen)
  rw [← foldl_bytesAfter_ev (.inr hst)] at hcapt
  exact ⟨hcapt.st, hcapt.cnt.trans hbytes, (observed_bytesAfter (.inr hst)).trans hnone⟩

/-- From reset, the last of the packets after the flushed one is taken whole (41_frame_aligner.md section 3). -/
theorem tookPacket_afterLock (hc : s.cfg.legal = true) {first lock : Nat × Byte} {pre fl last : List (Nat × Byte)}
    {packets : List (List (Nat × Byte))} (hpre : ShortGaps s.cfg pre) (hlock : s.cfg.tTicks < lock.1)
    (hfl : fl.length = 15) (hpackets : ∀ p ∈ packets, p.length = 16) (hlast : last.length = 16) :
    ∃ u : State, u.TookPacket (bytesOf last)
      ((stRst :: bytesAfter (first :: pre ++ lock :: fl ++ packets.flatten ++ last)).foldl cycle s) := by
  obtain ⟨haligned, -⟩ := aligned_lockStimulus hc (first := first) hpre hlock hfl
  obtain ⟨hst, hcnt, -⟩ := foldl_bytesAfter_packets haligned.st haligned.cnt hpackets
  rw [List.append_assoc, lockStimulus_append, bytesAfter_append, List.foldl_append, List.foldl_append]
  exact ⟨_, tookPacket_bytesAfter hst hcnt hlast⟩

/-- A multiple of 16 bytes is a sequence of packets. -/
theorem exists_packets {l : List (Nat × Byte)} {k : Nat} (hk : l.length = 16 * k) :
    ∃ packets : List (List (Nat × Byte)), packets.flatten = l ∧ ∀ p ∈ packets, p.length = 16 := by
  induction k generalizing l with
  | zero => exact ⟨[], (List.eq_nil_of_length_eq_zero hk).symm, fun _ hp => nomatch hp⟩
  | succ k ih =>
    obtain ⟨packets, hflat, hlen⟩ := ih (l := l.drop 16) (by rw [List.length_drop]; omega)
    refine ⟨l.take 16 :: packets, ?_, List.forall_mem_cons.2 ⟨?_, hlen⟩⟩
    · rw [List.flatten_cons, hflat, List.take_append_drop]
    · rw [List.length_take]
      omega

end Sys2Proof.Machine
end

section
/-! PROOFS. The statements about packets on a stream of bytes (41_frame_aligner.md section 3, 42_channel_decoder.md
sections 2 and 5). -/

open Sys2Proof Sys2Proof.Machine

namespace Sys2Proof.Proofs

/-- Settles O46: the 16 bytes are captured one by one and committed with the last. -/
theorem forwardingFidelity : Obligations.ForwardingFidelity := by
  intro s l hc hst hcnt _ hlen
  have htook := tookPacket_bytesAfter (s := s.given []) hst hcnt hlen
  exact ⟨_, (after_iff hc _).2 rfl, htook.ev.pkt, htook.pktDone, htook.ev.st, htook.ev.cnt⟩

/-- Settles O47: the second packet is the first, and DECODE7 of it a second time changes nothing. -/
theorem samePacketTwiceIsOnce : Obligations.SamePacketTwiceIsOnce := by
  intro s l l' hc hst hcnt _ _ hlen hbytes
  have hlen' : l'.length = 16 := by
    have := congrArg List.length hbytes
    simpa [bytesOf, hlen, eq_comm] using this
  have ht := tookPacket_bytesAfter (s := s.given []) hst hcnt hlen
  have hu := tookPacket_bytesAfter (s := ((bytesAfter l).foldl cycle (s.given [])).given []) ht.ev.st ht.ev.cnt hlen'
  refine ⟨_, _, (after_iff hc _).2 rfl, (after_iff (ht.cfg ▸ hc) _).2 rfl, ?same⟩
  case same =>
    obtain ⟨hpkt, hservo, hanom⟩ := ht.again (hbytes ▸ hu)
    obtain ⟨hch, hpos, hoob⟩ := outputs_lanes_eq hu.cfg hpkt
    exact ⟨hservo, hanom, hpkt, hch, hpos, hoob, hu.pktDone⟩

/-- Settles O49, from the stimulus of the lock. -/
theorem alignmentDiscardsTheLockingPacket : Obligations.AlignmentDiscardsTheLockingPacket := by
  intro s first lock pre fl hc hpre hlock _ hfl
  obtain ⟨h, -⟩ := aligned_lockStimulus (s := s.given []) hc (first := first) hpre hlock hfl
  exact ⟨_, (after_iff hc _).2 rfl, h.st, h.cnt, h.pktDone, h.pkt, h.servo, h.anomOob⟩

/-- Settles O50: from the lock on the bytes are taken in groups of 16. -/
theorem byteAccountingFromReset : Obligations.ByteAccountingFromReset := by
  intro s first lock pre fl mid last hc hpre hlock _ hfl _ hmid _ hlast
  obtain ⟨k, hk⟩ := Nat.dvd_of_mod_eq_zero hmid
  obtain ⟨packets, rfl, hpackets⟩ := exists_packets hk
  obtain ⟨_, htook⟩ := tookPacket_afterLock (s := s.given []) hc (first := first) hpre hlock hfl hpackets hlast
  exact ⟨_, (after_iff hc _).2 rfl, htook.ev.st, htook.ev.cnt, htook.pktDone, htook.ev.pkt⟩

/-- Settles O51: the first whole packet takes the lock with its first byte and is flushed; each later one is a group of
16 bytes after it. -/
theorem alignmentCorrectness : Obligations.AlignmentCorrectness := by
  intro s first rest packets last hc hrest _ hne hgood hlast
  obtain ⟨p, packets, rfl⟩ := List.exists_cons_of_ne_nil hne
  obtain ⟨⟨hlen, g, d, fl, rfl, hlong, -⟩, hpackets⟩ := List.forall_mem_cons.1 hgood
  have hfl : fl.length = 15 := Nat.succ.inj hlen
  obtain ⟨_, htook⟩ := tookPacket_afterLock (s := s.given []) hc (first := first) (lock := (g, d)) hrest hlong hfl
    (fun p hp => (hpackets p hp).1) hlast.1
  have hbytes : first :: rest ++ (((g, d) :: fl) :: packets).flatten ++ last =
      first :: rest ++ (g, d) :: fl ++ packets.flatten ++ last := by
    rw [List.flatten_cons, ← List.append_assoc]
  rw [hbytes]
  refine ⟨_, (after_iff hc _).2 rfl, ?aligned, htook.ev.cnt, htook.pktDone, htook.ev.pkt⟩
  case aligned =>
    rw [outputs_aligned]
    exact (St.aligned_iff _).2 htook.ev.st

/-- Settles O57: no packet is shown up to the lock, each whole group of 16 bytes after it shows one, and the bytes left
over show none. -/
theorem packetsOfARunAreTheStream : Obligations.PacketsOfARunAreTheStream := by
  intro s first lock pre fl part packets hc hpre hlock _ hfl hpackets _ hpart
  obtain ⟨haligned, hbefore⟩ := aligned_lockStimulus (s := s.given []) hc (first := first) hpre hlock hfl
  obtain ⟨hst, hcnt, hshown⟩ := foldl_bytesAfter_packets haligned.st haligned.cnt fun p hp => (hpackets p hp).2
  obtain ⟨hlocked, hleft, hnone⟩ := foldl_bytesAfter_part hst hcnt hpart
  rw [← List.foldl_append, ← List.foldl_append] at hlocked hleft
  have hstim : stRst :: bytesAfter (first :: pre ++ lock :: fl ++ packets.flatten ++ part) =
      lockStimulus first pre lock fl ++ (bytesAfter packets.flatten ++ bytesAfter part) := by
    rw [List.append_assoc, lockStimulus_append, bytesAfter_append]
  rw [hstim]
  refine ⟨_, runResult_eq hc rfl, ?packets, ?aligned, hleft⟩
  case packets =>
    rw [observed_append, observed_append, hbefore, hnone, List.nil_append, List.append_nil]
    exact hshown
  case aligned => exact (St.aligned_iff _).2 hlocked

end Sys2Proof.Proofs
end
